-- ==== Sys2Proof/Word.lean ====
section
/-! DEFINITION. The value types of rule R9: a byte is an unsigned 8-bit value, a byte string is a finite list of
bytes indexed from 0, a u32 is an unsigned 32-bit value. -/

namespace Sys2Proof

/-- An unsigned 8-bit value; bit 0 is its least significant bit (R9). -/
abbrev Byte := BitVec 8

/-- A finite list of bytes, in stream order (R9, R52). -/
abbrev Bytes := List Byte

/-- An unsigned 32-bit value (R9). -/
abbrev U32 := BitVec 32

/-- The four control-line levels: bit 0 CTS, bit 1 DSR, bit 2 RING, bit 3 RLSD, 1 = asserted (R22, R81). -/
abbrev Levels := BitVec 4

end Sys2Proof
end

