-- ==== Sys2Proof/Config.lean ====
section
/-! DEFINITION. The configuration record of rule R7, one field per parameter, with its reference value (column
REF) and the value the derived vectors use (column TEST). "A model takes it as an argument; no rule depends on a
value other than through this record": State carries one configuration, no operation writes it (R64), and every
statement holds for every configuration. The checks of rule R8 are Machine/Operands.lean's `configValid`. -/

namespace Sys2Proof

/-- `P_PARITY`, passed to `open()`: the spec names no value but "none". DESIGN CHOICE (log entry 19), safe. -/
inductive Parity where
  | none
  deriving DecidableEq, Repr

/-- The configuration of rule R7. A capacity of `none` is "unbounded". -/
structure Config where
  /-- `P_BAUD` -/
  baud : Nat
  /-- `P_DATA_BITS` -/
  dataBits : Nat
  /-- `P_STOP_BITS` -/
  stopBits : Nat
  /-- `P_PARITY` -/
  parity : Parity
  /-- `P_TOK_STX` -/
  tokStx : Bytes
  /-- `P_TOK_ETX` -/
  tokEtx : Bytes
  /-- `P_TOK_ENQ` -/
  tokEnq : Bytes
  /-- `P_TOK_ACK` -/
  tokAck : Bytes
  /-- `P_EOL` -/
  eol : Bytes
  /-- `P_CAP_LINE` -/
  capLine : Bytes
  /-- `P_MAX_ATTEMPTS` -/
  maxAttempts : Nat
  /-- `P_TICK_PERIOD` in milliseconds; timing only, no rule reads it (R244, R335; log entry 17) -/
  tickPeriodMs : Nat
  /-- `P_ACK_TICKS` -/
  ackTicks : Nat
  /-- `P_POLL_TICKS` -/
  pollTicks : Nat
  /-- `P_IDLE_TICKS` -/
  idleTicks : Nat
  /-- `P_N_PRE_ETX` -/
  nPreEtx : Nat
  /-- `P_N_POST_ACK` -/
  nPostAck : Nat
  /-- `P_OPEN_MAX_TRIES` -/
  openMaxTries : Nat
  /-- `P_OPEN_RETRY_DELAY` in milliseconds; timing only, no rule reads it (R234, R335; log entry 17) -/
  openRetryDelayMs : Nat
  /-- `P_FRAG_CAP` -/
  fragCap : Option Nat
  /-- `P_BUF_CAP` -/
  bufCap : Option Nat
  /-- `P_MSG_CAP` -/
  msgCap : Option Nat
  deriving DecidableEq, Repr

namespace Config

/-- The TEST value of `P_CAP_LINE` (R7): the bytes of the line
POTERION IOT:(name "strip", features [], properties []) in the form of rule R76. -/
def testCapLine : Bytes :=
  -- POTERION IOT:
  [0x50, 0x4F, 0x54, 0x45, 0x52, 0x49, 0x4F, 0x4E, 0x20, 0x49, 0x4F, 0x54, 0x3A]
  -- an opening brace, then "name": "strip",
  ++ [0x7B, 0x22, 0x6E, 0x61, 0x6D, 0x65, 0x22, 0x3A, 0x20, 0x22, 0x73, 0x74, 0x72, 0x69, 0x70, 0x22, 0x2C, 0x20]
  -- "features": [],
  ++ [0x22, 0x66, 0x65, 0x61, 0x74, 0x75, 0x72, 0x65, 0x73, 0x22, 0x3A, 0x20, 0x5B, 0x5D, 0x2C, 0x20]
  -- "properties": [] and a closing brace
  ++ [0x22, 0x70, 0x72, 0x6F, 0x70, 0x65, 0x72, 0x74, 0x69, 0x65, 0x73, 0x22, 0x3A, 0x20, 0x5B, 0x5D, 0x7D]

/-- The REF column of rule R7. `P_CAP_LINE` has no REF value there ("device build value"): the TEST line stands
in for it. DESIGN CHOICE (log entry 3): the spec gives no other line; unsafe, and no statement rests on it. -/
def ref : Config where
  baud := 115200
  dataBits := 8
  stopBits := 1
  parity := .none
  tokStx := [0x53, 0x54, 0x58]
  tokEtx := [0x45, 0x54, 0x58]
  tokEnq := [0x45, 0x4E, 0x51]
  tokAck := [0x41, 0x43, 0x4B]
  eol := [0x0A]
  capLine := testCapLine
  maxAttempts := 5
  tickPeriodMs := 100
  ackTicks := 50
  pollTicks := 10
  idleTicks := 100
  nPreEtx := 3
  nPostAck := 3
  openMaxTries := 3
  openRetryDelayMs := 100
  fragCap := none
  bufCap := none
  msgCap := none

/-- The TEST column of rule R7, for the vectors of 95_test_vectors.md (the two timing-only values are "not used"
there and stay as in REF). -/
def test : Config := { ref with ackTicks := 3, pollTicks := 2, idleTicks := 4 }

/-- FREE VALUE (log entry 6). The three STATUS bits that show `TX_ITER` (R37) when a configuration's
`P_MAX_ATTEMPTS` lets it pass 7, for which the spec states no value: nothing constrains it. -/
opaque freeStatusIter : Nat → BitVec 3

end Config

end Sys2Proof
end

