-- ==== Sys2Proof/Machine/Operands.lean ====
section
/-! DEFINITION. The operand forms and the helper functions of rule R12, "total on their inputs": separators, white
space, trim, strip_sep, dec, parse_dec; the row test of an acknowledgement line (R71 row 5); and the checks a
configuration must pass (R8). Every one works on bytes: "the block never decodes bytes as characters" (R9). -/

namespace Sys2Proof

/-- `is_sep(b)`: 0x0A or 0x0D (R12, R70). -/
def isSep (b : Byte) : Bool := b == 0x0A#8 || b == 0x0D#8

/-- `is_ws(b)`: 0x20, 0x09, 0x0B or 0x0C (R12). -/
def isWs (b : Byte) : Bool := b == 0x20#8 || b == 0x09#8 || b == 0x0B#8 || b == 0x0C#8

/-- A line is a byte string containing no separator (R9). -/
def isLine (l : Bytes) : Bool := l.all (fun b => !isSep b)

/-- `trim(l)`: without its longest prefix and its longest suffix of white space (R12). -/
def trim (l : Bytes) : Bytes := ((l.dropWhile isWs).reverse.dropWhile isWs).reverse

/-- `strip_sep(m)`: without its separators, the other bytes kept in order (R12). -/
def stripSep (m : Bytes) : Bytes := m.filter (fun b => !isSep b)

/-- What follows the prefix `p` of `l`, if `p` is a prefix of it. -/
def afterPrefix : Bytes → Bytes → Option Bytes
  | [], l => some l
  | _ :: _, [] => none
  | p :: ps, b :: bs => if p = b then afterPrefix ps bs else none

/-- `P_TOK_ACK ++ ":"` (R71 row 5, R75). -/
def ackPrefix (c : Config) : Bytes := c.tokAck ++ [0x3A#8]

/-- The ASCII digit of a value below 10 (R12). -/
def digit (n : Nat) : Byte := BitVec.ofNat 8 (0x30 + n)

/-- The last `k` decimal digits of `n`, without leading zeros but for the last digit. -/
def decDigits : Nat → Nat → Bytes
  | 0, _ => []
  | k + 1, n => if n < 10 then [digit n] else decDigits k (n / 10) ++ [digit (n % 10)]

/-- `dec(v)`: the shortest ASCII decimal text of a u32, which has at most ten digits (R12, R75). -/
def dec (v : U32) : Bytes := decDigits 10 v.toNat

/-- An ASCII digit 0x30 to 0x39. -/
def isDigit (b : Byte) : Bool := 0x30#8 ≤ b && b ≤ 0x39#8

/-- The value of a string of ASCII digits, most significant first (R52). -/
def digitsValue (s : Bytes) : Nat := s.foldl (fun a b => 10 * a + (b.toNat - 0x30)) 0

/-- `parse_dec(s)`: the value of a non-empty string of ASCII digits when it is at most 4294967295 (R12, R75). -/
def parseDec (s : Bytes) : Option U32 :=
  if s ≠ [] ∧ s.all isDigit = true ∧ digitsValue s ≤ 4294967295 then some (BitVec.ofNat 32 (digitsValue s)) else none

/-- What rule R8 asks of one token. -/
def tokenValid (t : Bytes) : Bool := !t.isEmpty && isLine t && trim t == t

/-- The constraints of rule R8. A configuration that fails one is refused with `BAD_CONFIG`. -/
def configValid (c : Config) : Bool :=
  [c.tokStx, c.tokEtx, c.tokEnq, c.tokAck].all tokenValid
  && decide ([c.tokStx, c.tokEtx, c.tokEnq, c.tokAck].Nodup)
  && [c.tokStx, c.tokEtx, c.tokEnq].all (fun t => (afterPrefix (ackPrefix c) t).isNone)
  && !c.eol.isEmpty && c.eol.all isSep
  && isLine c.capLine
  && decide (1 ≤ c.maxAttempts) && decide (1 ≤ c.ackTicks) && decide (1 ≤ c.pollTicks) && decide (1 ≤ c.idleTicks)
  && decide (2 ≤ c.nPreEtx) && decide (1 ≤ c.nPostAck) && decide (1 ≤ c.openMaxTries)

/-- A length in bytes is within a capacity; `none` is unbounded (R106). -/
def withinCap (n : Nat) : Option Nat → Bool
  | none => true
  | some cap => decide (n ≤ cap)

/-- CTS, DSR, RING and RLSD of the levels of a TICK (R81). -/
def Levels.cts (v : Levels) : Bool := v.getLsbD 0
/-- DSR is bit 1 (R81). -/
def Levels.dsr (v : Levels) : Bool := v.getLsbD 1
/-- RING is bit 2 (R81). -/
def Levels.ring (v : Levels) : Bool := v.getLsbD 2
/-- RLSD is bit 3 (R81). -/
def Levels.rlsd (v : Levels) : Bool := v.getLsbD 3

end Sys2Proof
end

