-- ==== Sys2Proof/Machine/Checksum.lean ====
section
/-! DEFINITION. The checksum generator (42_frame_receiver.md, R160 to R162): the reflected CRC-32 with polynomial
0xEDB88320, initial register 0xFFFFFFFF and final xor 0xFFFFFFFF. -/

namespace Sys2Proof

/-- One of the eight shifts of rule R160. -/
def crcBit (c : U32) : U32 := if c.getLsbD 0 then (c >>> 1) ^^^ 0xEDB88320#32 else c >>> 1

/-- One byte, least significant bit first: `c xor zext_32(b)`, then eight shifts (R160, R52). -/
def crcByte (c : U32) (b : Byte) : U32 :=
  crcBit (crcBit (crcBit (crcBit (crcBit (crcBit (crcBit (crcBit (c ^^^ b.setWidth 32))))))))

/-- `crc_update(c, s)` (R160). -/
def crcUpdate (c : U32) (s : Bytes) : U32 := s.foldl crcByte c

/-- The initial register, and the final xor, of rule R160. -/
def crcInit : U32 := 0xFFFFFFFF#32

/-- `crc32(s)` (R160). -/
def crc32 (s : Bytes) : U32 := crcUpdate crcInit s ^^^ crcInit

/-- "One shared pure function `normalize_and_checksum(lines)`", with lines untrimmed (R162). -/
def normalizeAndChecksum (lines : List Bytes) : U32 := crc32 lines.flatten

end Sys2Proof
end

