-- ==== Sys2Proof/Syntax.lean ====
section
/-! DEFINITION. What the block decodes (30_encoding.md): the operations of its input interface (R80 to R85) and the
line classes of the wire (R71). `Instr` has one constructor per row of spec/opcode_table.json. `Transaction` is the
form in which an instruction is presented: a command byte with its attached byte string (R79), or one line. -/

namespace Sys2Proof

/-- The six signal kinds of rule R82. -/
inductive SignalKind where
  | breakSignal | clearToSend | dataSetReady | error | ring | rlsd
  deriving DecidableEq, Repr

/-- One constructor per row of spec/opcode_table.json, in the table's order. -/
inductive Instr where
  /-- RESET, command byte 0x00 (R101) -/
  | reset
  /-- RX_CHUNK, 0x10, with the attached byte string `data` (R107) -/
  | rxChunk (data : Bytes)
  /-- TICK, 0x20 with the control-line levels in bits [3:0] (R110) -/
  | tick (levels : Levels)
  /-- SIGNAL BREAK, 0x30 with the level in bit 0 (R112, R271) -/
  | signalBreak (asserted : Bool)
  /-- SIGNAL CLEAR_TO_SEND, 0x32 (R112, R271) -/
  | signalClearToSend (asserted : Bool)
  /-- SIGNAL DATA_SET_READY, 0x34 (R112, R271) -/
  | signalDataSetReady (asserted : Bool)
  /-- SIGNAL ERROR, 0x36 (R112, R271) -/
  | signalError (asserted : Bool)
  /-- SIGNAL RING, 0x38 (R112, R271) -/
  | signalRing (asserted : Bool)
  /-- SIGNAL RLSD, 0x3A (R112, R271) -/
  | signalRlsd (asserted : Bool)
  /-- SEND, 0x40, with the attached byte string `message` (R114) -/
  | send (message : Bytes)
  /-- CANCEL, 0x50 (R116) -/
  | cancel
  /-- IOFAULT, 0x60 (R118) -/
  | iofault
  /-- reserved: SIGNAL with kind 6 or 7; `low` is bits [1:0] of the command byte (R85) -/
  | reservedSignalKind (low : BitVec 2)
  /-- reserved: a non-zero immediate on RESET, RX_CHUNK, SEND, CANCEL or IOFAULT (R85) -/
  | reservedImm (op imm : BitVec 4)
  /-- reserved: opcode 0x7 to 0xF (R85) -/
  | reservedOp (op imm : BitVec 4)
  /-- a line that trims to `P_TOK_STX` (R152) -/
  | lineStx (l : Bytes)
  /-- a line that trims to `P_TOK_ETX` (R153) -/
  | lineEtx (l : Bytes)
  /-- a line that trims to `P_TOK_ENQ` (R154) -/
  | lineEnq (l : Bytes)
  /-- a line that trims to `P_TOK_ACK` (R155) -/
  | lineAck (l : Bytes)
  /-- a line that trims to `P_TOK_ACK ++ ":" ++ v` (R195) -/
  | lineAckv (l v : Bytes)
  /-- any other line (R156) -/
  | lineOther (l : Bytes)
  deriving DecidableEq, Repr

/-- How an instruction reaches the block. `command` is an operation of rule R79: its byte and the attached byte
string, whose length the transaction carries. `line` is one line, given to `route` (R108) by itself: the LINE rows
of the opcode table, outside a chunk. DESIGN CHOICE (log entry 4): in the spec a line comes only out of a chunk;
safe, since it only adds inputs. -/
inductive Transaction where
  | command (byte : Byte) (operand : Bytes)
  | line (bytes : Bytes)
  deriving DecidableEq, Repr

end Sys2Proof
end

