-- ==== Sys2Proof/Machine/State.lean ====
section
/-! DEFINITION. The state of the block: every register of rule R22 under its own name, and four fields of the model's
own (the configuration, the open oracle, the output list, the operations presented). Plain data throughout. -/

namespace Sys2Proof.Machine

/-- `RXST` (R24). -/
inductive RxState where
  | idle | receiving | processing | waiting
  deriving DecidableEq, Repr

/-- `ROLE` (R27). -/
inductive Role where
  | rx | txWait
  deriving DecidableEq, Repr

/-- `TX_RCV` (R31). -/
inductive TxRcv where
  | none | value (c : U32) | malformed
  deriving DecidableEq, Repr

/-- The answer of the environment to one `OPEN` event (R104). -/
inductive OpenOutcome where
  | ok | busy | fail
  deriving DecidableEq, Repr

/-- The output events of rule R103. -/
inductive Event where
  /-- `OPEN(P_BAUD, P_DATA_BITS, P_STOP_BITS, P_PARITY)` -/
  | openPort (baud dataBits stopBits : Nat) (parity : Parity)
  /-- `CLOSE` -/
  | close
  /-- `PURGE`, all buffers (R243) -/
  | purge
  /-- `MODE_WRITE` -/
  | modeWrite
  /-- `MODE_READ` -/
  | modeRead
  /-- `WRITE(b)` -/
  | write (b : Bytes)
  /-- `DELIVER(L)` -/
  | deliver (lines : List Bytes)
  /-- `NOTIFY(k, a)` -/
  | notify (kind : SignalKind) (asserted : Bool)
  /-- `SEND_DONE(ok)` -/
  | sendDone (ok : Bool)
  deriving DecidableEq, Repr

/-- One presented input: its transaction and the open oracle that goes with it (R79, R104). -/
structure Input where
  /-- The command byte with its operand, or a line. -/
  transaction : Transaction
  /-- The outcomes of the opens it performs, in order. -/
  opens : List OpenOutcome
  deriving DecidableEq, Repr

/-- The state between two operations. The first fourteen fields are the registers of rule R22. -/
structure State where
  /-- `FRAG` (R23) -/
  frag : Bytes
  /-- `RXST` (R24) -/
  rxst : RxState
  /-- `FBUF` (R25) -/
  fbuf : List Bytes
  /-- `CRC_ACC` (R26) -/
  crcAcc : U32
  /-- `ROLE` (R27) -/
  role : Role
  /-- `PORT_OPEN` (R28) -/
  portOpen : Bool
  /-- `TX_ITER` (R29) -/
  txIter : Nat
  /-- `TX_MSG` (R30) -/
  txMsg : Bytes
  /-- `TX_EXP` (R30) -/
  txExp : U32
  /-- `TX_RCV` (R31) -/
  txRcv : TxRcv
  /-- `TX_WAIT_CNT` (R32) -/
  txWaitCnt : Nat
  /-- `SNAP` (R33) -/
  snap : Levels
  /-- `POLL_CNT` (R35) -/
  pollCnt : Nat
  /-- `IDLE_CNT` (R36) -/
  idleCnt : Nat
  /-- The configuration of rule R7, which no operation writes (R64). -/
  cfg : Config
  /-- The outcomes still to be drawn by the operation that runs (R104). -/
  oracle : List OpenOutcome
  /-- The output list of the operation that runs, or ran last (R11). -/
  events : List Event
  /-- The operations presented and not yet applied, oldest first (R57). -/
  inputs : List Input
  deriving DecidableEq, Repr

/-- The ways a step can fault: none. "The block raises no exception and has no fault state" (R280), and "there is no
third outcome" beside accepted and refused (R100). Nothing raises it; safe, since the spec says so. -/
inductive Fault where
  deriving DecidableEq, Repr

/-- The verdict "refused" of rules R11, R100 and R283: no state is written and no event is emitted. -/
inductive Refusal where
  /-- Raised by an arm of `exec` whose instruction has no meaning yet; no arm raises it. Safe. -/
  | notModelled (mnemonic : String)
  /-- `RESERVED_ENCODING`, code 1 (R85, R283): raised by the meanings of the three reserved rows. Safe: the spec
  refuses them. -/
  | reservedEncoding
  /-- `CAPACITY`, code 2 (R106, R283): raised by a step whose result exceeds a finite capacity. Safe: the spec
  refuses it. -/
  | capacity
  /-- `SEND_BUSY`, code 3 (R191, R283): raised by SEND while a session is active. Safe: the spec refuses it. -/
  | sendBusy
  /-- `BAD_CONFIG`, code 4 (R8, R283): raised by a step under a configuration that breaks a constraint of R8. Safe:
  the spec refuses it. -/
  | badConfig
  /-- The model's own (log entry 4): bytes with a separator presented as one line, which no line has (R9). Raised by
  a step. Safe: no operation of the spec presents such bytes. -/
  | notALine
  deriving DecidableEq, Repr

/-- The spec's own numeric codes (R283); the model's own two have none. -/
def Refusal.code : Refusal → Option Nat
  | .notModelled _ => none
  | .reservedEncoding => some 1
  | .capacity => some 2
  | .sendBusy => some 3
  | .badConfig => some 4
  | .notALine => none

/-- The outcome of a meaning or a step. -/
abbrev Outcome := Host.Outcome State Fault Refusal

/-- The machine right after reset: the table of rule R310, where a run may start (R313; log entry 13). The configuration
is the REF column of rule R7 (log entry 1); no oracle, no output, nothing presented. -/
def State.reset : State where
  frag := []
  rxst := .idle
  fbuf := []
  crcAcc := 0xFFFFFFFF#32
  role := .rx
  portOpen := false
  txIter := 0
  txMsg := []
  txExp := 0#32
  txRcv := .none
  txWaitCnt := 0
  snap := 0b0000#4
  pollCnt := 0
  idleCnt := 0
  cfg := Config.ref
  oracle := []
  events := []
  inputs := []

end Sys2Proof.Machine
end

