-- ==== Sys2Proof/Machine/Ops.lean ====
section
/-! DEFINITION. The named operations the meanings share: the primitives of rule R11 (emit, write_line, draw_open), the
writes of a register that carry another with them, and the block's one recovery path, the reconnect (R240) with the
open loop (R234). The block takes no exception and has no return from one (R280, R287, R288): an error condition is
handled by an ordinary transition of the unit that meets it, and where the document forces a reset of the protocol
state, that transition is `reconnect`. Last stand what a step does around an instruction (R100, R106). -/

namespace Sys2Proof.Machine

/-- `emit` for several events, in order (R11). -/
def emits (es : List Event) (s : State) : State := { s with events := s.events ++ es }

/-- `emit(e)`: append to the ordered output list of the current operation (R11). -/
def emit (e : Event) (s : State) : State := emits [e] s

/-- The event of `write_line(t)`: `WRITE(t ++ P_EOL)` (R11, R77). -/
def lineEvent (c : Config) (t : Bytes) : Event := .write (t ++ c.eol)

/-- `write_line(t)` (R11). -/
def writeLine (t : Bytes) (s : State) : State := emit (lineEvent s.cfg t) s

/-- `draw_open()`: the next outcome of the oracle, and the state with it taken (R11, R104). After the outcomes that
were presented every open is `OK`, the default of rule R86. DEDUCED (log entry 8); safe: a longer list overrides it. -/
def drawOpen (s : State) : OpenOutcome × State :=
  match s.oracle with
  | [] => (.ok, s)
  | o :: rest => (o, { s with oracle := rest })

/-- `RXST <- r`. "Every write that changes the value of `RXST`" sets `IDLE_CNT` to 0 (R232, R36). -/
def setRxst (r : RxState) (s : State) : State :=
  if s.rxst = r then s else { s with rxst := r, idleCnt := 0 }

/-- `FBUF <- [] ; CRC_ACC <- 0xFFFFFFFF` (R152, R153, R155, R240). -/
def clearFrame (s : State) : State := { s with fbuf := [], crcAcc := crcInit }

/-- The end of a sender session: its registers at their reset values, `ROLE <- RX` (R199, R204). -/
def clearSession (s : State) : State :=
  { s with txIter := 0, txMsg := [], txExp := 0#32, txRcv := .none, txWaitCnt := 0, role := .rx }

/-- The `OPEN` event with the fixed connection parameters (R103). -/
def openEvent (c : Config) : Event := .openPort c.baud c.dataBits c.stopBits c.parity

/-- What an `OK` open does (R234): purge all buffers, enter read mode. -/
def opened (s : State) : State :=
  { emits [.purge, .modeRead] s with portOpen := true, frag := [], snap := 0b0000#4, idleCnt := 0 }

/-- The loop of rule R234 with `k` tries left: `OK` opens, `BUSY` leaves the port closed until the next poll, `FAIL`
tries again while tries are left. -/
def openLoop : Nat → State → State
  | 0, s => { s with portOpen := false }
  | k + 1, s =>
    match drawOpen (emit (openEvent s.cfg) s) with
    | (.ok, s) => opened s
    | (.busy, s) => { s with portOpen := false }
    | (.fail, s) => openLoop k s

/-- `open_port()` (R234). -/
def openPort (s : State) : State := openLoop s.cfg.openMaxTries s

/-- `sender_abort()` (R204): no line is written, since the port is being closed. -/
def senderAbort (s : State) : State := emit (.sendDone false) (clearSession s)

/-- `reconnect()` (R240): the purge, close and reopen sequence, which aborts an active send and forces the receiver
to IDLE. -/
def reconnect (s : State) : State :=
  let s := if s.role = .txWait then senderAbort s else s
  let s := { emits [.purge, .close] s with frag := [], portOpen := false, rxst := .idle, idleCnt := 0 }
  openPort (clearFrame s)

/-- Every register of rule R22 at its reset value (R101, R310); the configuration, the environment's queue and the
output list are not registers. -/
def resetRegisters (s : State) : State :=
  { State.reset with cfg := s.cfg, oracle := s.oracle, events := s.events, inputs := s.inputs }

/-! ### Around an instruction -/

/-- The capacity bounds of rule R106, on the result of an operation. DEDUCED (log entry 11): the bound on the SEND
message is on the `TX_MSG` the result holds. -/
def withinCapacity (s : State) : Bool :=
  withinCap s.frag.length s.cfg.fragCap && withinCap s.fbuf.flatten.length s.cfg.bufCap
    && withinCap s.txMsg.length s.cfg.msgCap

/-- The state in which an input's instruction runs: the input taken from the queue, an empty output list, and the
input's own oracle (R11, R104). -/
def beginOp (opens : List OpenOutcome) (rest : List Input) (s : State) : State :=
  { s with inputs := rest, oracle := opens, events := [] }

/-- After an operation its oracle is gone: each operation has its own (R104). -/
def endOp (s : State) : State := { s with oracle := [] }

/-- The end of rule R100: the capacity check on the result, then accepted or refused. -/
def complete : Outcome → Outcome
  | .next s => if withinCapacity s then .next (endOp s) else .refused .capacity
  | .fault r => .fault r
  | .refused r => .refused r

/-- The environment presents one more operation (R13, R57). -/
def State.present (i : Input) (s : State) : State := { s with inputs := s.inputs ++ [i] }

end Sys2Proof.Machine
end

