-- ==== Sys2Proof/Machine/Notifier.lean ====
section
/-! DEFINITION. The Event Notifier (45_event_notifier.md) and the meanings of the six SIGNAL rows. -/

namespace Sys2Proof.Machine

/-- `notify(kind, asserted)`, exhaustive over the six kinds; RING is not forwarded (R271, R273). -/
def notify (k : SignalKind) (asserted : Bool) (s : State) : State :=
  match k with
  | .breakSignal => emit (.notify .breakSignal asserted) s
  | .clearToSend => emit (.notify .clearToSend asserted) s
  | .dataSetReady => emit (.notify .dataSetReady asserted) s
  | .error => emit (.notify .error asserted) s
  | .rlsd => emit (.notify .rlsd asserted) s
  | .ring => s

/-- `SIGNAL(kind, asserted)`: dropped while the port is closed (R112, R274). -/
def signal (k : SignalKind) (asserted : Bool) (s : State) : State :=
  if s.portOpen then notify k asserted s else s

/-- SIGNAL BREAK (R112, R271). -/
def execSignalBreak (asserted : Bool) (s : State) : Outcome := .next (signal .breakSignal asserted s)

/-- SIGNAL CLEAR_TO_SEND (R112, R271). -/
def execSignalClearToSend (asserted : Bool) (s : State) : Outcome := .next (signal .clearToSend asserted s)

/-- SIGNAL DATA_SET_READY (R112, R271). -/
def execSignalDataSetReady (asserted : Bool) (s : State) : Outcome := .next (signal .dataSetReady asserted s)

/-- SIGNAL ERROR (R112, R271). -/
def execSignalError (asserted : Bool) (s : State) : Outcome := .next (signal .error asserted s)

/-- SIGNAL RING: accepted, nothing is forwarded (R112, R271, R273). -/
def execSignalRing (asserted : Bool) (s : State) : Outcome := .next (signal .ring asserted s)

/-- SIGNAL RLSD (R112, R271). -/
def execSignalRlsd (asserted : Bool) (s : State) : Outcome := .next (signal .rlsd asserted s)

end Sys2Proof.Machine
end

