-- ==== Sys2Proof/WellFormed.lean ====
section
/-! DEFINITION. Which terms of `Instr` stand for a transaction: an operation with legal fields (R80 to R85), or a
line of the class its constructor names, by that class's own test (R71). -/

namespace Sys2Proof

/-- The class tests 1 to 4 of rule R71: the trimmed line is the token. -/
def trimsTo (tok l : Bytes) : Bool := isLine l && trim l == tok

/-- Well-formedness under a configuration. The operands of RX_CHUNK and SEND are any byte strings (R107, R114), every
TICK immediate is legal (R110). A line of class OTHER fails the tests of the other five rows (R71 row 6). -/
def WellFormed (c : Config) : Instr → Bool
  | .reset => true
  | .rxChunk _ => true
  | .tick _ => true
  | .signalBreak _ => true
  | .signalClearToSend _ => true
  | .signalDataSetReady _ => true
  | .signalError _ => true
  | .signalRing _ => true
  | .signalRlsd _ => true
  | .send _ => true
  | .cancel => true
  | .iofault => true
  | .reservedSignalKind _ => true
  | .reservedImm op imm => [0, 1, 4, 5, 6].contains op.toNat && imm != 0#4
  | .reservedOp op _ => decide (7 ≤ op.toNat)
  | .lineStx l => trimsTo c.tokStx l
  | .lineEtx l => trimsTo c.tokEtx l
  | .lineEnq l => trimsTo c.tokEnq l
  | .lineAck l => trimsTo c.tokAck l
  | .lineAckv l v => isLine l && trim l == ackPrefix c ++ v
  | .lineOther l =>
    isLine l && [c.tokStx, c.tokEtx, c.tokEnq, c.tokAck].all (fun t => trim l != t) && (afterPrefix (ackPrefix c) (trim l)).isNone

end Sys2Proof
end

