-- ==== Sys2Proof/Decode.lean ====
section
/-! DEFINITION. The decoder of 30_encoding.md, total on every transaction, and after it the encoder. A command byte
is `op` in [7:4] and `imm` in [3:0] (R79 to R82); every one of the 256 values is an operation or one of the three
reserved spaces (R84, R85). A line has exactly one class (R71). -/

namespace Sys2Proof

/-- Why a transaction is no instruction. -/
inductive DecodeError where
  /-- The bytes presented as one line hold 0x0A or 0x0D, so they are no line (R9). -/
  | notALine
  deriving DecidableEq, Repr

/-- The field `op`, bits [7:4] (R79). -/
def opField (b : Byte) : BitVec 4 := b.extractLsb' 4 4

/-- The field `imm`, bits [3:0] (R79). -/
def immField (b : Byte) : BitVec 4 := b.extractLsb' 0 4

/-- A command whose immediate must be 0b0000 (R81, R85). -/
def withoutImm (op imm : BitVec 4) (i : Instr) : Instr := if imm = 0#4 then i else .reservedImm op imm

/-- SIGNAL: the kind in `imm[3:1]`, the level in `imm[0]`; kinds 6 and 7 are reserved (R81, R82, R85). -/
def decodeSignal (imm : BitVec 4) : Instr :=
  let asserted := imm.getLsbD 0
  match (imm.extractLsb' 1 3).toNat with
  | 0 => .signalBreak asserted
  | 1 => .signalClearToSend asserted
  | 2 => .signalDataSetReady asserted
  | 3 => .signalError asserted
  | 4 => .signalRing asserted
  | 5 => .signalRlsd asserted
  | _ => .reservedSignalKind (imm.extractLsb' 0 2)

/-- A command byte and its attached byte string. "A decoder reads one byte, then, for `RX_CHUNK` and `SEND` only, the
attached byte string" (R83): beside another command the string is not read. DEDUCED (log entry 5), unsafe. -/
def decodeCommand (b : Byte) (operand : Bytes) : Instr :=
  let op := opField b
  let imm := immField b
  match op.toNat with
  | 0 => withoutImm op imm .reset
  | 1 => withoutImm op imm (.rxChunk operand)
  | 2 => .tick imm
  | 3 => decodeSignal imm
  | 4 => withoutImm op imm (.send operand)
  | 5 => withoutImm op imm .cancel
  | 6 => withoutImm op imm .iofault
  | _ => .reservedOp op imm

/-- The class of a line, "by the first test that holds" on the trimmed line (R71). -/
def classify (c : Config) (l : Bytes) : Instr :=
  let t := trim l
  if t = c.tokStx then .lineStx l
  else if t = c.tokEtx then .lineEtx l
  else if t = c.tokEnq then .lineEnq l
  else if t = c.tokAck then .lineAck l
  else match afterPrefix (ackPrefix c) t with
    | some v => .lineAckv l v
    | none => .lineOther l

/-- The decoder: total, and its one rejection has a name. -/
def decode (c : Config) : Transaction → Except DecodeError Instr
  | .command b operand => .ok (decodeCommand b operand)
  | .line l => if isLine l then .ok (classify c l) else .error .notALine

/-! ### The encoder -/

/-- `op` in [7:4], `imm` in [3:0] (R79). -/
def commandByte (op imm : BitVec 4) : Byte := op ++ imm

/-- The numeric codes of rule R82. -/
def SignalKind.code : SignalKind → BitVec 3
  | .breakSignal => 0
  | .clearToSend => 1
  | .dataSetReady => 2
  | .error => 3
  | .ring => 4
  | .rlsd => 5

/-- 0x30 | kind << 1 | level (R81, R86). -/
def signalByte (k : SignalKind) (asserted : Bool) : Byte := commandByte 3 (k.code ++ BitVec.ofBool asserted)

/-- The transaction of an instruction, from the tables of rules R80 to R82 and R86; a line is its own bytes. -/
def encode : Instr → Transaction
  | .reset => .command (commandByte 0 0) []
  | .rxChunk data => .command (commandByte 1 0) data
  | .tick levels => .command (commandByte 2 levels) []
  | .signalBreak a => .command (signalByte .breakSignal a) []
  | .signalClearToSend a => .command (signalByte .clearToSend a) []
  | .signalDataSetReady a => .command (signalByte .dataSetReady a) []
  | .signalError a => .command (signalByte .error a) []
  | .signalRing a => .command (signalByte .ring a) []
  | .signalRlsd a => .command (signalByte .rlsd a) []
  | .send message => .command (commandByte 4 0) message
  | .cancel => .command (commandByte 5 0) []
  | .iofault => .command (commandByte 6 0) []
  | .reservedSignalKind low => .command (commandByte 3 (3#2 ++ low)) []
  | .reservedImm op imm => .command (commandByte op imm) []
  | .reservedOp op imm => .command (commandByte op imm) []
  | .lineStx l => .line l
  | .lineEtx l => .line l
  | .lineEnq l => .line l
  | .lineAck l => .line l
  | .lineAckv l _ => .line l
  | .lineOther l => .line l

/-! ### One number for an instruction's bits -/

/-- The low `n` bytes of `w`, the least significant byte first: byte 0 stands first in the stream (R52). -/
def wordBytes : Nat → Nat → Bytes
  | 0, _ => []
  | n + 1, w => BitVec.ofNat 8 w :: wordBytes n (w / 256)

/-- The transaction that `nbits` bits stand for: up to eight bits are a command byte with an empty attached string
(the table gives that string no bits), more are the bytes of a LINE row. DESIGN CHOICE (log entry 16), safe. -/
def wordTransaction (nbits w : Nat) : Transaction :=
  if nbits ≤ 8 then .command (BitVec.ofNat 8 w) [] else .line (wordBytes ((nbits + 7) / 8) w)

/-- The instruction the decoder reads from an instruction word, with the tokens of the reference configuration. -/
def decodeTableWord (nbits w : Nat) : Option Instr :=
  match decode Config.ref (wordTransaction nbits w) with
  | .ok i => some i
  | .error _ => none

end Sys2Proof
end

