-- ==== Sys2Proof/Machine/Receiver.lean ====
section
/-! DEFINITION. The Frame Receiver (42_frame_receiver.md): one transition per line class, over `RXST`, `FBUF` and
`CRC_ACC`. -/

namespace Sys2Proof.Machine

/-- `append(l)`: the line verbatim, untrimmed (R157). -/
def append (l : Bytes) (s : State) : State :=
  { s with fbuf := s.fbuf ++ [l], crcAcc := crcUpdate s.crcAcc l }

/-- A write of the receiver, wrapped by the mode switch (R153, R154). -/
def receiverWrite (t : Bytes) (s : State) : State :=
  emits [.modeWrite, lineEvent s.cfg t, .modeRead] s

/-- The acknowledgement line of a checksum (R75). -/
def ackLine (c : Config) (sum : U32) : Bytes := ackPrefix c ++ dec sum

/-- The transient state: write the acknowledgement of the buffer's checksum, then `RXST <- WAITING` (R153, R158). -/
def processing (s : State) : State :=
  setRxst .waiting (receiverWrite (ackLine s.cfg (s.crcAcc ^^^ crcInit)) s)

/-- PROCESSING "always advances immediately to `WAITING`" (R24): the last row of rule R150. No line ever meets that
state (R39, R151); DEDUCED (log entry 10). -/
def leaveProcessing (s : State) : State := if s.rxst = .processing then processing s else s

/-- The end of a frame, delivered or aborted: `FBUF <- [] ; CRC_ACC <- 0xFFFFFFFF ; RXST <- IDLE` (R153, R155). -/
def endFrame (s : State) : State := setRxst .idle (clearFrame s)

/-- Line class STX (R152). -/
def receiveStx (l : Bytes) (s : State) : State :=
  let s := leaveProcessing s
  match s.rxst with
  | .idle => setRxst .receiving (clearFrame s)
  | .receiving => append l s
  | .processing => s
  | .waiting => s

/-- Line class ETX (R153). -/
def receiveEtx (s : State) : State :=
  let s := leaveProcessing s
  match s.rxst with
  | .idle => s
  | .receiving => processing (setRxst .processing s)
  | .processing => s
  | .waiting => endFrame s

/-- Line class ENQ (R154). -/
def receiveEnq (l : Bytes) (s : State) : State :=
  let s := leaveProcessing s
  match s.rxst with
  | .idle => receiverWrite s.cfg.capLine s
  | .receiving => append l s
  | .processing => s
  | .waiting => s

/-- Line class ACK, the whole token (R155). -/
def receiveAck (l : Bytes) (s : State) : State :=
  let s := leaveProcessing s
  match s.rxst with
  | .idle => s
  | .receiving => append l s
  | .processing => s
  | .waiting => endFrame (emit (.deliver s.fbuf) s)

/-- Every other line, `ACKV(v)` lines among them (R156). -/
def receiveOther (l : Bytes) (s : State) : State :=
  let s := leaveProcessing s
  match s.rxst with
  | .idle => s
  | .receiving => append l s
  | .processing => s
  | .waiting => s

end Sys2Proof.Machine
end

