-- ==== Sys2Proof/Machine/Sender.lean ====
section
/-! DEFINITION. The Frame Sender (43_frame_sender.md): the attempts of a send, its acknowledgement detector, its
deadline and its end. -/

namespace Sys2Proof.Machine

/-- The events of one attempt for the message `m` (R193). -/
def attemptEvents (c : Config) (m : Bytes) : List Event :=
  [.modeWrite, .purge] ++ List.replicate c.nPreEtx (lineEvent c c.tokEtx)
    ++ [lineEvent c c.tokStx, .write (m ++ c.eol), lineEvent c c.tokEtx, .modeRead]

/-- `start_attempt()` (R192). -/
def startAttempt (s : State) : State :=
  { emits (attemptEvents s.cfg s.txMsg) s with
    txIter := s.txIter + 1, txRcv := .none, txWaitCnt := 0, frag := [], role := .txWait }

/-- The events that end the send loop, before its report (R199). -/
def burstEvents (c : Config) : List Event :=
  [.modeWrite] ++ List.replicate c.nPostAck (lineEvent c c.tokAck) ++ [.modeRead]

/-- `finish(ok)` (R199). `FRAG` is kept. -/
def finish (ok : Bool) (s : State) : State :=
  emit (.sendDone ok) { clearSession (emits (burstEvents s.cfg) s) with idleCnt := 0 }

/-- `attempt_failed()` (R198). -/
def attemptFailed (s : State) : State :=
  if s.txIter < s.cfg.maxAttempts then startAttempt s else finish false s

/-- `sender_start(message)` on an idle sender (R190): on a closed port the send completes at once (R191). -/
def senderStart (message : Bytes) (s : State) : State :=
  if s.portOpen then
    startAttempt { s with txMsg := message, txExp := crc32 (stripSep message), txIter := 0 }
  else emit (.sendDone false) s

/-- The acknowledgement detector on the value of an `ACKV(v)` line (R195); it ignores every other class. -/
def ackDetect (v : Bytes) (s : State) : State :=
  { s with txRcv := match parseDec v with | some c => .value c | none => .malformed }

/-- `sender_evaluate()` (R196), while `ROLE = TX_WAIT`. -/
def senderEvaluate (s : State) : State :=
  match s.txRcv with
  | .none => s
  | .value c => if c = s.txExp then finish true s else attemptFailed s
  | .malformed => attemptFailed s

/-- The end of a delivery of lines: "if ROLE = TX_WAIT: sender_evaluate()" (R107). -/
def endDelivery (s : State) : State := if s.role = .txWait then senderEvaluate s else s

/-- `sender_tick()` (R197), while `ROLE = TX_WAIT`. -/
def senderTick (s : State) : State :=
  let s := { s with txWaitCnt := s.txWaitCnt + 1 }
  if s.txWaitCnt = s.cfg.ackTicks then attemptFailed s else s

/-- `sender_cancel()` (R203). -/
def senderCancel (s : State) : State := if s.role = .txWait then finish false s else s

end Sys2Proof.Machine
end

