-- ==== Sys2Proof/Machine/Lines.lean ====
section
/-! DEFINITION. `route` (R108), class by class: while `ROLE = RX` a line goes to the Frame Receiver, while
`ROLE = TX_WAIT` to the acknowledgement detector, never to both (R62). The meanings of the six LINE rows, and the
routing of the lines of a chunk by their class (R71). -/

namespace Sys2Proof.Machine

/-- A line of class STX: the detector ignores it (R152, R195). -/
def routeStx (l : Bytes) (s : State) : State := if s.role = .rx then receiveStx l s else s

/-- A line of class ETX (R153, R195). -/
def routeEtx (s : State) : State := if s.role = .rx then receiveEtx s else s

/-- A line of class ENQ (R154, R195). -/
def routeEnq (l : Bytes) (s : State) : State := if s.role = .rx then receiveEnq l s else s

/-- A line of class ACK: a plain ACK is no acknowledgement with checksum (R155, R195). -/
def routeAck (l : Bytes) (s : State) : State := if s.role = .rx then receiveAck l s else s

/-- A line of class ACKV(v): OTHER to the receiver (R156), the acknowledgement to the detector (R195). -/
def routeAckv (l v : Bytes) (s : State) : State := if s.role = .rx then receiveOther l s else ackDetect v s

/-- A line of class OTHER (R156, R195). -/
def routeOther (l : Bytes) (s : State) : State := if s.role = .rx then receiveOther l s else s

/-- `route(l)` (R108): the line's class by rule R71, then the rule of its class. -/
def route (l : Bytes) (s : State) : State :=
  match classify s.cfg l with
  | .lineStx l => routeStx l s
  | .lineEtx _ => routeEtx s
  | .lineEnq l => routeEnq l s
  | .lineAck l => routeAck l s
  | .lineAckv l v => routeAckv l v s
  | _ => routeOther l s

/-- The lines of one chunk, "in split order, each to completion" (R58). -/
def routeAll (lines : List Bytes) (s : State) : State := lines.foldl (fun s l => route l s) s

/-- LINE STX (R152). -/
def execLineStx (l : Bytes) (s : State) : Outcome := .next (routeStx l s)

/-- LINE ETX (R153). -/
def execLineEtx (_l : Bytes) (s : State) : Outcome := .next (routeEtx s)

/-- LINE ENQ (R154). -/
def execLineEnq (l : Bytes) (s : State) : Outcome := .next (routeEnq l s)

/-- LINE ACK (R155). -/
def execLineAck (l : Bytes) (s : State) : Outcome := .next (routeAck l s)

/-- LINE ACKV(v) (R156, R195). -/
def execLineAckv (l v : Bytes) (s : State) : Outcome := .next (routeAckv l v s)

/-- LINE OTHER (R156). -/
def execLineOther (l : Bytes) (s : State) : Outcome := .next (routeOther l s)

end Sys2Proof.Machine
end

