-- ==== Sys2Proof/Machine/Monitor.lean ====
section
/-! DEFINITION. The Port Lifecycle Monitor (44_port_monitor.md): the idle counter, the poll, the falling-edge detector
and the watchdog. The open loop and the reconnect are in Ops.lean. -/

namespace Sys2Proof.Machine

/-- The idle counter of one tick, saturating (R231, R232). -/
def countIdle (s : State) : State :=
  if s.portOpen = true ∧ s.role = .rx ∧ s.rxst = .idle then { s with idleCnt := min (s.idleCnt + 1) s.cfg.idleTicks } else s

/-- A falling edge on CTS, DSR or RLSD: asserted in the snapshot, deasserted now (R233, R236). RING drives nothing. -/
def fallingEdge (snap levels : Levels) : Bool :=
  let fall := snap &&& ~~~levels
  Levels.cts fall || Levels.dsr fall || Levels.rlsd fall

/-- `poll(lines)` (R233). -/
def poll (levels : Levels) (s : State) : State :=
  if s.portOpen then
    let edge := fallingEdge s.snap levels
    let s := { s with snap := levels }
    if edge then reconnect s
    else if s.role = .rx ∧ s.cfg.idleTicks ≤ s.idleCnt then reconnect s
    else s
  else openPort s

/-- `monitor_tick(lines)` (R231). -/
def monitorTick (levels : Levels) (s : State) : State :=
  let s := countIdle s
  if s.pollCnt = 0 then poll levels { s with pollCnt := s.cfg.pollTicks - 1 }
  else { s with pollCnt := s.pollCnt - 1 }

end Sys2Proof.Machine
end

