-- ==== Sys2Proof/Machine/Splitter.lean ====
section
/-! DEFINITION. The Line Splitter (41_line_splitter.md): `split` as rule R131 gives it, by segments, and the
byte-serial form of rule R134. -/

namespace Sys2Proof.Machine

/-- Whether a chunk begins with a separator. -/
def startsWithSep : Bytes → Bool
  | [] => false
  | b :: _ => isSep b

/-- The segments of a chunk, cut at every maximal run of separators: the first, and the others (R131). A separator
followed by a separator belongs to the same run. -/
def segments : Bytes → Bytes × List Bytes
  | [] => ([], [])
  | b :: rest =>
    let (first, others) := segments rest
    if isSep b then (if startsWithSep rest then (first, others) else ([], first :: others))
    else (b :: first, others)

/-- All but the last of a non-empty list given as head and tail, and its last. -/
def unlast {α : Type} (x : α) : List α → List α × α
  | [] => ([], x)
  | y :: ys => let (init, last) := unlast y ys; (x :: init, last)

/-- `split(frag, data) -> (lines, frag')` (R131): the fragment is put before the first segment, the last segment is
the new fragment, the others are the lines. -/
def split (frag data : Bytes) : List Bytes × Bytes :=
  let (first, others) := segments data
  unlast (frag ++ first) others

/-- The byte-serial form (R134), with the accumulator `acc` and the flag `in_run`. -/
def splitSerial : Bytes → Bool → Bytes → List Bytes × Bytes
  | acc, _, [] => ([], acc)
  | acc, inRun, b :: rest =>
    if isSep b then
      if inRun then splitSerial acc true rest
      else let (lines, frag) := splitSerial [] true rest; (acc :: lines, frag)
    else splitSerial (acc ++ [b]) false rest

end Sys2Proof.Machine
end

