-- ==== Sys2Proof/Machine/Operations.lean ====
section
/-! DEFINITION. The meanings of the operations of 40_block_interface.md (but SIGNAL, in Notifier.lean) and of the three
reserved rows. A capacity refusal (R106) is the step's, on the result (R100). -/

namespace Sys2Proof.Machine

/-- RESET (R101). -/
def execReset (s : State) : Outcome := .next (resetRegisters s)

/-- What an accepted chunk does on an open port: split it, route its lines, evaluate (R107). -/
def acceptChunk (data : Bytes) (s : State) : State :=
  let (lines, frag) := split s.frag data
  endDelivery (routeAll lines { s with frag := frag })

/-- RX_CHUNK: dropped while the port is closed (R107). -/
def execRxChunk (data : Bytes) (s : State) : Outcome := .next (if s.portOpen then acceptChunk data s else s)

/-- TICK: the sender's deadline, then the monitor (R110). -/
def execTick (levels : Levels) (s : State) : Outcome :=
  .next (monitorTick levels (if s.role = .txWait then senderTick s else s))

/-- SEND: refused while a session is active (R114, R190, R191). -/
def execSend (message : Bytes) (s : State) : Outcome :=
  if s.role = .txWait then .refused .sendBusy else .next (senderStart message s)

/-- CANCEL (R116). -/
def execCancel (s : State) : Outcome := .next (senderCancel s)

/-- IOFAULT: a reconnect when the port is open (R118). -/
def execIofault (s : State) : Outcome := .next (if s.portOpen then reconnect s else s)

/-- SIGNAL with kind 6 or 7: `refuse(RESERVED_ENCODING)` (R85). -/
def execReservedSignalKind (_low : BitVec 2) (_s : State) : Outcome := .refused .reservedEncoding

/-- A non-zero immediate where it must be 0: `refuse(RESERVED_ENCODING)` (R85). -/
def execReservedImm (_op _imm : BitVec 4) (_s : State) : Outcome := .refused .reservedEncoding

/-- An opcode in 0x7..0xF: `refuse(RESERVED_ENCODING)` (R85). -/
def execReservedOp (_op _imm : BitVec 4) (_s : State) : Outcome := .refused .reservedEncoding

end Sys2Proof.Machine
end

