-- ==== Sys2Proof/Machine/Dispatch.lean ====
section
/-! DEFINITION. One arm per constructor of `Instr`, each one call of that instruction's meaning. -/

namespace Sys2Proof.Machine

def exec (i : Instr) (s : State) : Host.Outcome State Fault Refusal :=
  match i with
  | .reset => Sys2Proof.Machine.execReset s
  | .rxChunk data => Sys2Proof.Machine.execRxChunk data s
  | .tick levels => Sys2Proof.Machine.execTick levels s
  | .signalBreak a => Sys2Proof.Machine.execSignalBreak a s
  | .signalClearToSend a => Sys2Proof.Machine.execSignalClearToSend a s
  | .signalDataSetReady a => Sys2Proof.Machine.execSignalDataSetReady a s
  | .signalError a => Sys2Proof.Machine.execSignalError a s
  | .signalRing a => Sys2Proof.Machine.execSignalRing a s
  | .signalRlsd a => Sys2Proof.Machine.execSignalRlsd a s
  | .send message => Sys2Proof.Machine.execSend message s
  | .cancel => Sys2Proof.Machine.execCancel s
  | .iofault => Sys2Proof.Machine.execIofault s
  | .reservedSignalKind low => Sys2Proof.Machine.execReservedSignalKind low s
  | .reservedImm op imm => Sys2Proof.Machine.execReservedImm op imm s
  | .reservedOp op imm => Sys2Proof.Machine.execReservedOp op imm s
  | .lineStx l => Sys2Proof.Machine.execLineStx l s
  | .lineEtx l => Sys2Proof.Machine.execLineEtx l s
  | .lineEnq l => Sys2Proof.Machine.execLineEnq l s
  | .lineAck l => Sys2Proof.Machine.execLineAck l s
  | .lineAckv l v => Sys2Proof.Machine.execLineAckv l v s
  | .lineOther l => Sys2Proof.Machine.execLineOther l s

end Sys2Proof.Machine
end

