-- ==== Sys2Proof/Machine/Transactions.lean ====
section
/-! DEFINITION. One step of rule R100 around the meaning of an instruction, which it takes as the argument `run`: the
configuration check (R8), the next presented input, its decoding, the instruction, the capacity check. Step.lean gives
it `exec`. -/

namespace Sys2Proof.Machine

/-- What follows the meaning of one line that was presented by itself: the evaluation that ends a delivery (R107). -/
def afterLine : Outcome → Outcome
  | .next s => .next (endDelivery s)
  | .fault r => .fault r
  | .refused r => .refused r

/-- One decoded input. An operation runs its meaning. A line presented by itself runs its meaning and the end of a
delivery, and is dropped while the port is closed, as a chunk is (R107; log entry 4). -/
def runDecoded (run : Instr → State → Outcome) (t : Transaction) (i : Instr) (s : State) : Outcome :=
  match t with
  | .command _ _ => run i s
  | .line _ => if s.portOpen then afterLine (run i s) else .next s

/-- One presented input, taken from the queue (R100). -/
def runInput (run : Instr → State → Outcome) (input : Input) (rest : List Input) (s : State) : Outcome :=
  match decode s.cfg input.transaction with
  | .ok i => complete (runDecoded run input.transaction i (beginOp input.opens rest s))
  | .error .notALine => .refused .notALine

/-- Nothing is presented: "between operations it holds its state indefinitely" (R295), and there is no event. -/
def idleStep (s : State) : State := { s with events := [] }

/-- A configuration that fails rule R8 is refused whatever is presented: it never changes (R64), so the check that the
spec makes once, before the first operation, gives the same answer at every step (log entry 12). -/
def checked (s : State) (o : Outcome) : Outcome := if configValid s.cfg then o else .refused .badConfig

/-- One step (R100). -/
def stepWith (run : Instr → State → Outcome) (s : State) : Outcome :=
  match s.inputs with
  | [] => checked s (.next (idleStep s))
  | input :: rest => checked s (runInput run input rest s)

/-- The instruction word, presented before everything else. A line needs an open port to be taken (log entry 4). -/
def placeTransaction (t : Transaction) (s : State) : State :=
  match t with
  | .command _ _ => { s with inputs := ⟨t, []⟩ :: s.inputs }
  | .line _ => { s with inputs := ⟨t, []⟩ :: s.inputs, portOpen := true }

end Sys2Proof.Machine
end

