-- ==== Sys2Proof/Machine/Step.lean ====
section
/-! DEFINITION. The step of the machine, and the placing of one instruction word before it. -/

namespace Sys2Proof.Machine

/-- One step: the next presented input, applied atomically and in full (R13, R54, R100). -/
def step (s : State) : Host.Outcome State Fault Refusal := stepWith exec s

/-- The instruction whose bits are `w`, put where `step` takes its next input. -/
def State.withFetchWord (s : State) (nbits w : Nat) : State := placeTransaction (wordTransaction nbits w) s

end Sys2Proof.Machine
end

