-- ==== Sys2Proof/Machine/Assembler.lean ====
section
/-! DEFINITION. The assembler syntax of rule R86, in which the test programs of 95_test_vectors.md are written, one
operation a line: `assemble` gives the inputs one line stands for, or nothing for text outside the syntax. The text is
bytes (ASCII codes, R9). No rule of the block reads it. The details R86 leaves open are DEDUCED (log entry 18),
safe. -/

namespace Sys2Proof.Machine

/-- A command with its operand and its open outcomes. -/
def commandInput (b : Byte) (operand : Bytes) (opens : List OpenOutcome) : Input := ⟨.command b operand, opens⟩

/-- Cut at the first byte `sep`: what stands before it, and what stands after it, if it occurs. -/
def cutAt (sep : Byte) : Bytes → Bytes × Option Bytes
  | [] => ([], none)
  | b :: rest => if b = sep then ([], some rest) else let (w, r) := cutAt sep rest; (b :: w, r)

/-- The value of a hexadecimal digit, in either case. -/
def hexDigit (b : Byte) : Option Nat :=
  let n := b.toNat
  if 0x30 ≤ n ∧ n ≤ 0x39 then some (n - 0x30)
  else if 0x41 ≤ n ∧ n ≤ 0x46 then some (n - 0x41 + 10)
  else if 0x61 ≤ n ∧ n ≤ 0x66 then some (n - 0x61 + 10)
  else none

/-- The bytes of a quoted operand after its opening quote, with the escapes \n, \r, \t and \xHH. The closing quote ends
the text. -/
def unquote : Bytes → Option Bytes
  | [] => none
  | [b] => if b = 0x22#8 then some [] else none
  | b :: e :: rest =>
    if b = 0x22#8 then none
    else if b = 0x5C#8 then
      if e = 0x6E#8 then (unquote rest).map (0x0A#8 :: ·)
      else if e = 0x72#8 then (unquote rest).map (0x0D#8 :: ·)
      else if e = 0x74#8 then (unquote rest).map (0x09#8 :: ·)
      else if e = 0x78#8 then
        match rest with
        | h :: l :: tail =>
          match hexDigit h, hexDigit l with
          | some x, some y => (unquote tail).map (BitVec.ofNat 8 (16 * x + y) :: ·)
          | _, _ => none
        | _ => none
      else none
    else (unquote (e :: rest)).map (b :: ·)

/-- A quoted operand. -/
def quoted : Bytes → Option Bytes
  | [] => none
  | b :: rest => if b = 0x22#8 then unquote rest else none

/-- One binary digit. -/
def binDigit (b : Byte) : Option Bool :=
  if b = 0x30#8 then some false else if b = 0x31#8 then some true else none

/-- The four levels `<b3b2b1b0>`, RLSD first. -/
def levelsText : Bytes → Option Levels
  | [b3, b2, b1, b0] =>
    match binDigit b3, binDigit b2, binDigit b1, binDigit b0 with
    | some x3, some x2, some x1, some x0 =>
      some (BitVec.ofBool x3 ++ BitVec.ofBool x2 ++ BitVec.ofBool x1 ++ BitVec.ofBool x0)
    | _, _, _, _ => none
  | _ => none

/-- One open outcome: `OK`, `BUSY` or `FAIL`. -/
def outcomeText (w : Bytes) : Option OpenOutcome :=
  if w = [0x4F, 0x4B] then some .ok
  else if w = [0x42, 0x55, 0x53, 0x59] then some .busy
  else if w = [0x46, 0x41, 0x49, 0x4C] then some .fail
  else none

/-- Outcomes separated by commas; `word` holds the bytes of the one being read. -/
def outcomesText : Bytes → Bytes → Option (List OpenOutcome)
  | word, [] => (outcomeText word).map ([·])
  | word, b :: rest =>
    if b = 0x2C#8 then
      match outcomeText word, outcomesText [] rest with
      | some o, some os => some (o :: os)
      | _, _ => none
    else outcomesText (word ++ [b]) rest

/-- `open=<o1>,<o2>,...`, or nothing: "default: every open `OK`". -/
def opensText : Option Bytes → Option (List OpenOutcome)
  | none => some []
  | some t => match afterPrefix [0x6F, 0x70, 0x65, 0x6E, 0x3D] t with
    | some rest => outcomesText [] rest
    | none => none

/-- `<kind>,<0|1>`: the kind's code in one digit below 8 and the level. -/
def signalText : Bytes → Option Byte
  | [k, c, a] =>
    match binDigit a with
    | some level =>
      if 0x30 ≤ k.toNat ∧ k.toNat ≤ 0x37 ∧ c = 0x2C#8 then
        some (commandByte 3 (BitVec.ofNat 3 (k.toNat - 0x30) ++ BitVec.ofBool level))
      else none
    | none => none
  | _ => none

/-- `<n>, <b3b2b1b0>` of the pseudo-operation `WAIT`. -/
def waitText (t : Bytes) : Option (Nat × Levels) :=
  match cutAt 0x2C#8 t with
  | (n, some (b :: v)) =>
    if b = 0x20#8 ∧ n ≠ [] ∧ n.all isDigit = true then (levelsText v).map (digitsValue n, ·) else none
  | _ => none

/-- The mnemonics of rule R86 in ASCII. -/
def kwReset : Bytes := [0x52, 0x45, 0x53, 0x45, 0x54]
/-- `RX` -/
def kwRx : Bytes := [0x52, 0x58]
/-- `RXL` -/
def kwRxl : Bytes := [0x52, 0x58, 0x4C]
/-- `TICK` -/
def kwTick : Bytes := [0x54, 0x49, 0x43, 0x4B]
/-- `WAIT` -/
def kwWait : Bytes := [0x57, 0x41, 0x49, 0x54]
/-- `SIG` -/
def kwSig : Bytes := [0x53, 0x49, 0x47]
/-- `SEND` -/
def kwSend : Bytes := [0x53, 0x45, 0x4E, 0x44]
/-- `CANCEL` -/
def kwCancel : Bytes := [0x43, 0x41, 0x4E, 0x43, 0x45, 0x4C]
/-- `IOFAULT` -/
def kwIofault : Bytes := [0x49, 0x4F, 0x46, 0x41, 0x55, 0x4C, 0x54]

/-- One line of assembler text (R86), with the exact expansions of `RXL` and `WAIT`. -/
def assemble (text : Bytes) : Option (List Input) :=
  let (word, args) := cutAt 0x20#8 text
  match args with
  | none =>
    if word = kwReset then some [commandInput 0x00#8 [] []]
    else if word = kwCancel then some [commandInput 0x50#8 [] []]
    else if word = kwIofault then some [commandInput 0x60#8 [] []]
    else none
  | some args =>
    if word = kwRx then (quoted args).map fun d => [commandInput 0x10#8 d []]
    else if word = kwRxl then (quoted args).map fun d => [commandInput 0x10#8 (d ++ [0x0A#8]) []]
    else if word = kwSend then (quoted args).map fun m => [commandInput 0x40#8 m []]
    else if word = kwSig then (signalText args).map fun b => [commandInput b [] []]
    else if word = kwIofault then (opensText (some args)).map fun os => [commandInput 0x60#8 [] os]
    else if word = kwTick then
      let (bits, opens) := cutAt 0x20#8 args
      match levelsText bits, opensText opens with
      | some v, some os => some [commandInput (commandByte 2 v) [] os]
      | _, _ => none
    else if word = kwWait then
      (waitText args).map fun nv => List.replicate nv.1 (commandInput (commandByte 2 nv.2) [] [])
    else none

end Sys2Proof.Machine
end

