-- ==== Sys2Proof/Machine/Flags.lean ====
section
/-! DEFINITION. The block has no condition codes (R38). Its flag-like state is read through one view, the read-only
16-bit STATUS word of rule R37, which no operation writes and no rule reads. -/

namespace Sys2Proof.Machine

/-- The encoding of `RXST` (R22). -/
def RxState.code : RxState → BitVec 2
  | .idle => 0
  | .receiving => 1
  | .processing => 2
  | .waiting => 3

/-- The encoding of `ROLE` (R22). -/
def Role.code : Role → BitVec 1
  | .rx => 0
  | .txWait => 1

/-- `TX_RCV_TAG`: 0 NONE, 1 VALUE, 2 MALFORMED (R37). -/
def TxRcv.tag : TxRcv → BitVec 2
  | .none => 0
  | .value _ => 1
  | .malformed => 2

/-- The three bits that show `TX_ITER`; a count they cannot hold reads as a free value (log entry 6). -/
def iterField (n : Nat) : BitVec 3 := if n < 8 then BitVec.ofNat 3 n else Config.freeStatusIter n

/-- `STATUS` (R37): [15:13] 0, [12:11] TX_RCV_TAG, [10:8] TX_ITER, [7:4] SNAP, [3] PORT_OPEN, [2] ROLE, [1:0] RXST. -/
def status (s : State) : BitVec 16 :=
  0#3 ++ s.txRcv.tag ++ iterField s.txIter ++ s.snap ++ BitVec.ofBool s.portOpen ++ s.role.code ++ s.rxst.code

end Sys2Proof.Machine
end

