-- ==== Sys2Proof/Machine/Instances.lean ====
section
/-! DEFINITION. Several ports are "multiple independent session instances with no shared state" (R293): a list of
states, each with its own registers, configuration and operations. -/

namespace Sys2Proof.Machine

/-- One instance takes a step; the others hold still. `none` when that step is refused, or there is no such instance. -/
def stepInstance (k : Nat) (instances : List State) : Option (List State) :=
  match instances[k]? with
  | none => none
  | some s =>
    match step s with
    | .next t => some (instances.set k t)
    | .refused _ => none
    | .fault q => nomatch q

end Sys2Proof.Machine
end

