-- ==== Sys2Proof/Machine/Run.lean ====
section
/-! DEFINITION. A run and what is observed of it (R336): the operations presented, each step's verdict with the events
of an accepted step, the last state, and the mark "set for the whole run, once any step is refused" (R283). After a
refused step the block goes on from the state it had (R11, R100; program P5 of 95_test_vectors.md). The three byte
streams of rule R51 are read off the trace. -/

namespace Sys2Proof.Machine

/-- The verdict of one step (R100). -/
inductive Verdict where
  | accepted (events : List Event)
  | refused (reason : Refusal)
  deriving DecidableEq, Repr

/-- One step of a run: the state it started in, whose queue names the operation, and its verdict. -/
structure StepRecord where
  /-- The state before the step. -/
  before : State
  /-- The verdict. -/
  verdict : Verdict
  deriving DecidableEq, Repr

/-- A run up to now: the state, the steps oldest first, and the mark of rule R283. -/
structure Run where
  /-- The state after the last step. -/
  state : State
  /-- The steps, oldest first. -/
  trace : List StepRecord
  /-- Set once any step is refused. -/
  refusedMark : Bool
  deriving DecidableEq, Repr

/-- A run that has not begun. -/
def Run.start (s : State) : Run := { state := s, trace := [], refusedMark := false }

/-- One step more. A refused operation writes no register and emits nothing; it is no longer presented. DESIGN CHOICE
(log entry 14), safe. -/
def Run.advance (r : Run) : Run :=
  match step r.state with
  | .next t => { r with state := t, trace := r.trace ++ [⟨r.state, .accepted t.events⟩] }
  | .refused q =>
    { state := { r.state with inputs := r.state.inputs.tail }
      trace := r.trace ++ [⟨r.state, .refused q⟩]
      refusedMark := true }
  | .fault q => nomatch q

/-- `n` steps more. -/
def Run.advanceN : Nat → Run → Run
  | 0, r => r
  | n + 1, r => Run.advanceN n r.advance

/-- The events of a step's verdict; a refused step has none (R100). -/
def Verdict.events : Verdict → List Event
  | .accepted es => es
  | .refused _ => []

/-- The event history of a run (R336). -/
def Run.history (r : Run) : List Event := r.trace.flatMap (fun x => x.verdict.events)

/-- The bytes of a `WRITE` event. -/
def Event.written : Event → Bytes
  | .write b => b
  | _ => []

/-- The outbound stream: the bytes of the `WRITE` events in event order (R51 item 2, R59). -/
def outbound (es : List Event) : Bytes := es.flatMap Event.written

/-- The chunk a step accepted: an `RX_CHUNK` that was not refused, on an open port (R51 item 1, R28, R107).
DEDUCED (log entry 15), safe. -/
def StepRecord.chunk (x : StepRecord) : Option Bytes :=
  match x.verdict, x.before.inputs with
  | .accepted _, ⟨.command b operand, _⟩ :: _ =>
    match decodeCommand b operand with
    | .rxChunk data => if x.before.portOpen then some data else none
    | _ => none
  | _, _ => none

/-- The inbound stream of a run (R51 item 1). -/
def Run.inbound (r : Run) : Bytes := r.trace.flatMap (fun x => x.chunk.getD [])

/-- The lines the Line Splitter yielded in one step (R51 item 3). -/
def StepRecord.lines (x : StepRecord) : List Bytes :=
  match x.chunk with
  | some data => (split x.before.frag data).1
  | none => []

/-- The line stream of a run (R51 item 3). -/
def Run.lineStream (r : Run) : List Bytes := r.trace.flatMap StepRecord.lines

/-- The sources of operations (R120): one environment agent each, whose operations are interleaved freely (R57). -/
inductive Agent where
  | engineStart | notification | healthLoop | caller | transportFailure
  deriving DecidableEq, Repr

/-- The agent that presents an instruction; a reserved encoding has none. -/
def agentOf : Instr → Option Agent
  | .reset => some .engineStart
  | .rxChunk _ => some .notification
  | .tick _ => some .healthLoop
  | .signalBreak _ => some .notification
  | .signalClearToSend _ => some .notification
  | .signalDataSetReady _ => some .notification
  | .signalError _ => some .notification
  | .signalRing _ => some .notification
  | .signalRlsd _ => some .notification
  | .send _ => some .caller
  | .cancel => some .caller
  | .iofault => some .transportFailure
  | .reservedSignalKind _ => none
  | .reservedImm _ _ => none
  | .reservedOp _ _ => none
  | .lineStx _ => some .notification
  | .lineEtx _ => some .notification
  | .lineEnq _ => some .notification
  | .lineAck _ => some .notification
  | .lineAckv _ _ => some .notification
  | .lineOther _ => some .notification

end Sys2Proof.Machine
end

