-- ==== Sys2Proof/Safety.lean ====
section
/-! DEFINITION. What holds between operations (R39), and what a run without a refusal is (R283). -/

namespace Sys2Proof.Machine

/-- The nine invariants of rule R39, item by item. -/
structure Invariants (s : State) : Prop where
  /-- 1. `RXST ≠ PROCESSING` -/
  notProcessing : s.rxst ≠ .processing
  /-- 2. `RXST = IDLE ⇒ FBUF = []` -/
  idleEmpty : s.rxst = .idle → s.fbuf = []
  /-- 3. `CRC_ACC = crc_update(0xFFFFFFFF, concat(FBUF))` -/
  checksum : s.crcAcc = crcUpdate 0xFFFFFFFF#32 s.fbuf.flatten
  /-- 4. `FRAG` contains no separator … -/
  fragLine : isLine s.frag = true
  /-- 4. … nor does any line of `FBUF` -/
  fbufLines : ∀ l ∈ s.fbuf, isLine l = true
  /-- 5. `ROLE = TX_WAIT ⇒ PORT_OPEN = 1 ∧ 1 ≤ TX_ITER ≤ P_MAX_ATTEMPTS ∧ TX_WAIT_CNT < P_ACK_TICKS` -/
  session : s.role = .txWait →
    s.portOpen = true ∧ 1 ≤ s.txIter ∧ s.txIter ≤ s.cfg.maxAttempts ∧ s.txWaitCnt < s.cfg.ackTicks
  /-- 6. `ROLE = RX ⇒ TX_ITER = 0 ∧ TX_MSG = [] ∧ TX_EXP = 0 ∧ TX_RCV = NONE ∧ TX_WAIT_CNT = 0` -/
  noSession : s.role = .rx →
    s.txIter = 0 ∧ s.txMsg = [] ∧ s.txExp = 0#32 ∧ s.txRcv = .none ∧ s.txWaitCnt = 0
  /-- 7. `ROLE = TX_WAIT ⇒ TX_RCV = NONE` -/
  consumed : s.role = .txWait → s.txRcv = .none
  /-- 8. `POLL_CNT < P_POLL_TICKS` … -/
  pollBound : s.pollCnt < s.cfg.pollTicks
  /-- 8. … and `IDLE_CNT ≤ P_IDLE_TICKS` -/
  idleBound : s.idleCnt ≤ s.cfg.idleTicks
  /-- 9. `PORT_OPEN = 0 ⇒ ROLE = RX` -/
  closed : s.portOpen = false → s.role = .rx

/-- A run in which no step was refused: "a model keeps a mark, set for the whole run" (R283). -/
def Run.safe (r : Run) : Bool := !r.refusedMark

end Sys2Proof.Machine
end

