-- ==== Sys2Proof/Certificates/Slice0/Obligations.lean ====
section
/-! DEFINITION. The statements for the provers, from the numbered rules of spec/. Each is about every configuration
(State carries it) unless it says otherwise. A statement that gives a whole next state as a record update of the state
before gives the instruction's result and its frame at once: every field not named is unchanged. The words the
statements share stand first, in `Sys2Proof.Claims`. -/

namespace Sys2Proof.Claims

open Sys2Proof.Machine

/-- The lines of a list, one after the other, each as the instruction its class stands for (R58, R71). -/
def feed : List Bytes → State → Outcome
  | [], s => .next s
  | l :: ls, s =>
    match exec (classify s.cfg l) s with
    | .next t => feed ls t
    | .refused r => .refused r
    | .fault r => .fault r

/-- A line of class ACKV (R71). -/
def isAckv (c : Config) (l : Bytes) : Bool :=
  match classify c l with
  | .lineAckv _ _ => true
  | _ => false

/-- A line of class ETX (R71). -/
def isEtx (c : Config) (l : Bytes) : Bool :=
  match classify c l with
  | .lineEtx _ => true
  | _ => false

/-- The class of a line by number, with the value text of an ACKV line; the other instructions have none. -/
def lineClass : Instr → Option (Nat × Bytes)
  | .lineStx _ => some (1, [])
  | .lineEtx _ => some (2, [])
  | .lineEnq _ => some (3, [])
  | .lineAck _ => some (4, [])
  | .lineAckv _ v => some (5, v)
  | .lineOther _ => some (6, [])
  | _ => none

/-- `WRITE(t ++ P_EOL)` (R11). -/
def writes (s : State) (t : Bytes) : Event := .write (t ++ s.cfg.eol)

/-- The events of one attempt (R193). -/
def attempt (s : State) (m : Bytes) : List Event :=
  [.modeWrite, .purge] ++ List.replicate s.cfg.nPreEtx (writes s s.cfg.tokEtx)
    ++ [writes s s.cfg.tokStx, writes s m, writes s s.cfg.tokEtx, .modeRead]

/-- The events of the end of a send (R199). -/
def ending (s : State) (ok : Bool) : List Event :=
  [.modeWrite] ++ List.replicate s.cfg.nPostAck (writes s s.cfg.tokAck) ++ [.modeRead, .sendDone ok]

/-- The state after `finish(ok)` (R199). -/
def finished (ok : Bool) (s : State) : State :=
  { s with txIter := 0, txMsg := [], txExp := 0, txRcv := .none, txWaitCnt := 0, role := .rx, idleCnt := 0,
           events := s.events ++ ending s ok }

/-- The state after one attempt that failed (R198): the next attempt (R192), or the end of the send (R199). -/
def retried (s : State) : State :=
  if s.txIter < s.cfg.maxAttempts then
    { s with txIter := s.txIter + 1, txRcv := .none, txWaitCnt := 0, frag := [], role := .txWait,
             events := s.events ++ attempt s s.txMsg }
  else finished false s

/-- The state after the evaluation of an attempt (R196). -/
def evaluated (s : State) : State :=
  match s.txRcv with
  | .none => s
  | .value c => if c = s.txExp then finished true s else retried s
  | .malformed => retried s

/-- The `OPEN` event (R103). -/
def opens (s : State) : Event := .openPort s.cfg.baud s.cfg.dataBits s.cfg.stopBits s.cfg.parity

/-- How the open loop of rule R234 goes with at most `max` tries and the outcomes `o`: `n` opens, `ok` says whether the
port is then open, `rest` are the outcomes not drawn. That an open after the end of the list is answered `OK` (the second
case) is the model's reading of R86 (log entry 8). -/
def Opens (max : Nat) (o : List OpenOutcome) (n : Nat) (ok : Bool) (rest : List OpenOutcome) : Prop :=
  (ok = true ∧ 1 ≤ n ∧ n ≤ max ∧ o = List.replicate (n - 1) .fail ++ .ok :: rest) ∨
  (ok = true ∧ 1 ≤ n ∧ n ≤ max ∧ o = List.replicate (n - 1) .fail ∧ rest = []) ∨
  (ok = false ∧ 1 ≤ n ∧ n ≤ max ∧ o = List.replicate (n - 1) .fail ++ .busy :: rest) ∨
  (ok = false ∧ n = max ∧ o = List.replicate max .fail ++ rest)

/-- The events of an open loop (R234). -/
def openEvents (s : State) (n : Nat) (ok : Bool) : List Event :=
  List.replicate n (opens s) ++ (if ok then [.purge, .modeRead] else [])

/-- The state after an open loop that makes `n` opens (R234). -/
def afterOpening (s : State) (n : Nat) (ok : Bool) (rest : List OpenOutcome) : State :=
  { s with portOpen := ok, frag := (if ok then [] else s.frag), snap := (if ok then 0 else s.snap),
           idleCnt := (if ok then 0 else s.idleCnt), oracle := rest, events := s.events ++ openEvents s n ok }

/-- The state after a reconnect whose reopen makes `n` opens (R240, R234). -/
def reconnected (s : State) (n : Nat) (ok : Bool) (rest : List OpenOutcome) : State :=
  { s with frag := [], rxst := .idle, fbuf := [], crcAcc := 0xFFFFFFFF#32, role := .rx, portOpen := ok,
           txIter := (if s.role = .txWait then 0 else s.txIter),
           txMsg := (if s.role = .txWait then [] else s.txMsg),
           txExp := (if s.role = .txWait then 0 else s.txExp),
           txRcv := (if s.role = .txWait then .none else s.txRcv),
           txWaitCnt := (if s.role = .txWait then 0 else s.txWaitCnt),
           snap := (if ok then 0 else s.snap), idleCnt := 0, oracle := rest,
           events := s.events ++ (if s.role = .txWait then [.sendDone false] else []) ++ [.purge, .close]
             ++ openEvents s n ok }

/-- `IDLE_CNT` after one tick (R231, R232). -/
def idleAfter (s : State) : Nat :=
  if s.portOpen = true ∧ s.role = .rx ∧ s.rxst = .idle then min (s.idleCnt + 1) s.cfg.idleTicks else s.idleCnt

/-- A falling edge on CTS, DSR or RLSD (R236): asserted at the last poll, deasserted now. -/
def falls (snap levels : Levels) : Prop :=
  (snap.getLsbD 0 = true ∧ levels.getLsbD 0 = false) ∨ (snap.getLsbD 1 = true ∧ levels.getLsbD 1 = false)
    ∨ (snap.getLsbD 3 = true ∧ levels.getLsbD 3 = false)

/-- Every `WRITE` stands between a `MODE_WRITE` and the next `MODE_READ`, and write mode ends with the list. The
argument says whether write mode holds at the start. -/
def bracketed : Bool → List Event → Bool
  | mode, [] => !mode
  | mode, .modeWrite :: es => !mode && bracketed true es
  | _, .modeRead :: es => bracketed false es
  | mode, .write _ :: es => mode && bracketed mode es
  | mode, .openPort _ _ _ _ :: es => !mode && bracketed mode es
  | mode, .close :: es => !mode && bracketed mode es
  | mode, .purge :: es => bracketed mode es
  | mode, .deliver _ :: es => !mode && bracketed mode es
  | mode, .notify _ _ :: es => !mode && bracketed mode es
  | mode, .sendDone _ :: es => !mode && bracketed mode es

/-- The instruction of the input a step takes, if there is one and it decodes. -/
def nextInstr (s : State) : Option Instr :=
  match s.inputs with
  | [] => none
  | i :: _ =>
    match decode s.cfg i.transaction with
    | .ok x => some x
    | .error _ => none

/-- The lines a step gives to `route`: those of a chunk, or the one line presented. -/
def nextLines (s : State) : List Bytes :=
  match s.inputs with
  | ⟨.command b operand, _⟩ :: _ =>
    match decodeCommand b operand with
    | .rxChunk data => (split s.frag data).1
    | _ => []
  | ⟨.line l, _⟩ :: _ => [l]
  | [] => []

/-- The last line of class ACKV in a list holds the decimal text of `c`. -/
def lastAckIs (cfg : Config) (lines : List Bytes) (c : U32) : Prop :=
  ∃ before l v after, lines = before ++ l :: after ∧ classify cfg l = .lineAckv l v ∧ parseDec v = some c ∧
    ∀ x ∈ after, isAckv cfg x = false

/-- An input that leaves a waiting session alone but for the passage of ticks (R201): no RESET, CANCEL or IOFAULT, and
no line of class ACKV. -/
def quiet (s : State) : Prop :=
  nextInstr s ≠ some .reset ∧ nextInstr s ≠ some .cancel ∧ nextInstr s ≠ some .iofault ∧
    ∀ l ∈ nextLines s, isAckv s.cfg l = false

/-- The events but for relayed signals. -/
def unsignalled (es : List Event) : List Event :=
  es.filter fun
    | .notify _ _ => false
    | _ => true

/-- A step that takes a TICK. -/
def ticks (s : State) : Nat :=
  match nextInstr s with
  | some (.tick _) => 1
  | _ => 0

/-- `Waits s n es t`: from `s`, steps of a waiting session lead to `t`, with quiet inputs, `n` of them TICKs, the events
`es` in all, and no reconnect. -/
inductive Waits (s : State) : Nat → List Event → State → Prop where
  | start : Waits s 0 [] s
  | more {n : Nat} {es : List Event} {t u : State} : Waits s n es t → t.role = .txWait → quiet t → step t = .next u →
      .close ∉ u.events → Waits s (n + ticks t) (es ++ u.events) u

/-- The lines and the fragment of a stream of chunks, from the fragment `frag` (R136). -/
def splitAll : Bytes → List Bytes → List Bytes × Bytes
  | frag, [] => ([], frag)
  | frag, d :: ds =>
    let (lines, frag') := split frag d
    let (more, last) := splitAll frag' ds
    (lines ++ more, last)

/-- The constraints of rule R8, as propositions. -/
def Constraints (c : Config) : Prop :=
  (∀ t ∈ [c.tokStx, c.tokEtx, c.tokEnq, c.tokAck],
    t ≠ [] ∧ (∀ b ∈ t, b ≠ 0x0A#8 ∧ b ≠ 0x0D#8) ∧ trim t = t) ∧
  c.tokStx ≠ c.tokEtx ∧ c.tokStx ≠ c.tokEnq ∧ c.tokStx ≠ c.tokAck ∧ c.tokEtx ≠ c.tokEnq ∧ c.tokEtx ≠ c.tokAck ∧
  c.tokEnq ≠ c.tokAck ∧
  (∀ t ∈ [c.tokStx, c.tokEtx, c.tokEnq], ¬ (c.tokAck ++ [0x3A#8]) <+: t) ∧
  c.eol ≠ [] ∧ (∀ b ∈ c.eol, b = 0x0A#8 ∨ b = 0x0D#8) ∧
  (∀ b ∈ c.capLine, b ≠ 0x0A#8 ∧ b ≠ 0x0D#8) ∧
  1 ≤ c.maxAttempts ∧ 1 ≤ c.ackTicks ∧ 1 ≤ c.pollTicks ∧ 1 ≤ c.idleTicks ∧ 2 ≤ c.nPreEtx ∧ 1 ≤ c.nPostAck ∧
  1 ≤ c.openMaxTries

/-- The capacity bounds of rule R106, as propositions. -/
def Within (s : State) : Prop :=
  (∀ n, s.cfg.fragCap = some n → s.frag.length ≤ n) ∧
  (∀ n, s.cfg.bufCap = some n → s.fbuf.flatten.length ≤ n) ∧
  (∀ n, s.cfg.msgCap = some n → s.txMsg.length ≤ n)

end Sys2Proof.Claims

open Sys2Proof Sys2Proof.Machine Sys2Proof.Claims

/-! ### Encodings -/

/-- Decode and encode agree (R71, R79 to R83), for every well-formed instruction under every legal configuration. -/
def Obligations.DecodeOfEncode : Prop :=
  ∀ (c : Config) (i : Instr), configValid c = true → WellFormed c i = true → decode c (encode i) = .ok i

/-- The other direction (R83, R84): a command byte decodes to a well-formed instruction, and the encoder gives the byte
back, with the attached string for RX_CHUNK and SEND and with none for the others (log entry 5). -/
def Obligations.EncodeOfDecode : Prop :=
  ∀ (c : Config) (b : Byte) (operand : Bytes),
    WellFormed c (decodeCommand b operand) = true ∧
    encode (decodeCommand b operand) = .command b (if b = 0x10#8 ∨ b = 0x40#8 then operand else [])

/-- R85: exactly the reserved encodings are refused with RESERVED_ENCODING, in every state. -/
def Obligations.ReservedEncodingsRefused : Prop :=
  ∀ (b : Byte) (operand : Bytes) (s : State),
    exec (decodeCommand b operand) s = .refused .reservedEncoding ↔
      (7 ≤ b.toNat / 16 ∨ (b.toNat / 16 ∈ [0, 1, 4, 5, 6] ∧ b.toNat % 16 ≠ 0)
        ∨ (b.toNat / 16 = 3 ∧ 6 ≤ b.toNat % 16 / 2))

/-- R85, constructor by constructor: the meanings of the three reserved rows stop in every state. -/
def Obligations.ReservedRowsStop : Prop :=
  ∀ (low : BitVec 2) (op imm : BitVec 4) (s : State),
    exec (.reservedSignalKind low) s = .refused .reservedEncoding ∧
    exec (.reservedImm op imm) s = .refused .reservedEncoding ∧
    exec (.reservedOp op imm) s = .refused .reservedEncoding

/-- A few command bytes written out from R80 to R82, and the lines of the tokens of R72. That a number of more than 8
bits stands for a line, the first byte lowest, with the tokens of `Config.ref`, and that the string attached to 0x10 and
0x40 is then empty, is the model's choice (log entry 16). -/
def Obligations.TabledWordsDecode : Prop :=
  decodeTableWord 8 0x00 = some .reset ∧ decodeTableWord 8 0x10 = some (.rxChunk []) ∧
  decodeTableWord 8 0x2B = some (.tick 0b1011#4) ∧ decodeTableWord 8 0x33 = some (.signalClearToSend true) ∧
  decodeTableWord 8 0x3A = some (.signalRlsd false) ∧ decodeTableWord 8 0x40 = some (.send []) ∧
  decodeTableWord 8 0x3E = some (.reservedSignalKind 0b10#2) ∧ decodeTableWord 8 0x61 = some (.reservedImm 6 1) ∧
  decodeTableWord 8 0xA5 = some (.reservedOp 10 5) ∧
  decodeTableWord 24 0x585453 = some (.lineStx [0x53, 0x54, 0x58]) ∧
  decodeTableWord 32 0x3A4B4341 = some (.lineAckv [0x41, 0x43, 0x4B, 0x3A] [])

/-- R71: "every line decodes to exactly one class": one well-formed instruction has these bytes as its line, and the
decoder gives it. -/
def Obligations.EveryLineHasOneClass : Prop :=
  ∀ (c : Config) (l : Bytes), configValid c = true → isLine l = true →
    ∃ i, decode c (.line l) = .ok i ∧ (lineClass i).isSome = true ∧
      ∀ j, (WellFormed c j = true ∧ encode j = .line l) ↔ j = i

/-- R73: white space before and after a line does not change its class. -/
def Obligations.PaddingKeepsLineClass : Prop :=
  ∀ (c : Config) (p l q : Bytes), p.all isWs = true → q.all isWs = true →
    lineClass (classify c (p ++ l ++ q)) = lineClass (classify c l)

/-- R12, R75: the decimal text of a u32 is digits only, at least one, reads back as the value, has no leading zero but
for "0", and is the shortest text that reads as the value. -/
def Obligations.DecimalTextRoundTrip : Prop :=
  ∀ v : U32, parseDec (dec v) = some v ∧ dec v ≠ [] ∧ (dec v).all isDigit = true ∧
    ((dec v).head? = some 0x30#8 → v = 0) ∧ dec 0 = [0x30] ∧
    ∀ t : Bytes, parseDec t = some v → (dec v).length ≤ t.length

/-! ### Line Splitter -/

/-- R134: the byte-serial form gives the same lines and fragment as the segment form of R131. -/
def Obligations.SplitByteSerialAgrees : Prop :=
  ∀ frag data : Bytes, splitSerial frag false data = split frag data

/-- R132 and R133: an empty chunk, a chunk without a separator, a chunk with one, a chunk that ends on one. -/
def Obligations.SplitFragmentRules : Prop :=
  ∀ (frag a d rest : Bytes) (b : Byte), isLine a = true → isSep b = true →
    split frag [] = ([], frag) ∧ split frag a = ([], frag ++ a) ∧
    (∃ more, split frag (a ++ b :: rest) = ((frag ++ a) :: more, (split [] (a ++ b :: rest)).2)) ∧
    (split frag (d ++ [b])).2 = []

/-- R135: an empty line comes exactly from an empty fragment before a chunk that begins with a separator, once, and
first; and the stream of the rule's example. -/
def Obligations.SplitEmptyLines : Prop :=
  (∀ frag data : Bytes, [] ∈ (split frag data).1 ↔ frag = [] ∧ ∃ b rest, data = b :: rest ∧ isSep b = true) ∧
  (∀ data : Bytes, [] ∈ (split [] data).1 → ∃ more, (split [] data).1 = [] :: more ∧ [] ∉ more) ∧
  (splitAll [] [[0x41, 0x0D, 0x0A, 0x42, 0x0A]]).1 = [[0x41], [0x42]] ∧
  (splitAll [] [[0x41, 0x0D], [0x0A, 0x42, 0x0A]]).1 = [[0x41], [], [0x42]]

/-- R136, the stream property: whatever the chunks, the yielded lines and the last fragment together are the stream
without its separators; and two chunkings of one stream differ by empty lines only. -/
def Obligations.StreamContentPreserved : Prop :=
  (∀ ds : List Bytes, (splitAll [] ds).1.flatten ++ (splitAll [] ds).2 = stripSep ds.flatten) ∧
  (∀ ds es : List Bytes, ds.flatten = es.flatten →
    (splitAll [] ds).2 = (splitAll [] es).2 ∧
    (splitAll [] ds).1.filter (fun l => l ≠ []) = (splitAll [] es).1.filter (fun l => l ≠ []))

/-! ### Checksum -/

/-- R163: the check values; and the two texts of the example of R206. -/
def Obligations.ChecksumValues : Prop :=
  crc32 [] = 0 ∧ crc32 [0x41] = 0xD3D99E8B#32 ∧
  crc32 [0x31, 0x32, 0x33, 0x34, 0x35, 0x36, 0x37, 0x38, 0x39] = 0xCBF43926#32 ∧
  crc32 [0x48, 0x45, 0x4C, 0x4C, 0x4F, 0x57, 0x4F, 0x52, 0x4C, 0x44] = 0xF2743D92#32 ∧
  normalizeAndChecksum [[0x48, 0x45, 0x4C, 0x4C, 0x4F], [0x57, 0x4F, 0x52, 0x4C, 0x44]] = 4067704210#32 ∧
  stripSep [0x48, 0x45, 0x4C, 0x4C, 0x4F, 0x0A, 0x57, 0x4F, 0x52, 0x4C, 0x44] =
    [0x48, 0x45, 0x4C, 0x4C, 0x4F, 0x57, 0x4F, 0x52, 0x4C, 0x44]

/-- R162: the checksum of a message without its separators is the shared normalisation of every list of lines with that
content, in particular of the lines a peer's splitter yields from the message and its terminator. -/
def Obligations.BothRolesNormaliseAlike : Prop :=
  ∀ m eol : Bytes, eol ≠ [] → eol.all isSep = true →
    normalizeAndChecksum (split [] (m ++ eol)).1 = crc32 (stripSep m) ∧
    ∀ L : List Bytes, L.flatten = stripSep m → normalizeAndChecksum L = crc32 (stripSep m)

/-! ### Lines -/

/-- R152: line class STX in the receiver. -/
def Obligations.LineStxEffect : Prop :=
  ∀ (s : State) (l : Bytes), s.role = .rx →
    (s.rxst = .idle → exec (.lineStx l) s =
      .next { s with fbuf := [], crcAcc := 0xFFFFFFFF#32, rxst := .receiving, idleCnt := 0 }) ∧
    (s.rxst = .receiving → exec (.lineStx l) s =
      .next { s with fbuf := s.fbuf ++ [l], crcAcc := crcUpdate s.crcAcc l }) ∧
    (s.rxst = .waiting → exec (.lineStx l) s = .next s)

/-- R153: line class ETX in the receiver. -/
def Obligations.LineEtxEffect : Prop :=
  ∀ (s : State) (l : Bytes), s.role = .rx →
    (s.rxst = .idle → exec (.lineEtx l) s = .next s) ∧
    (s.rxst = .receiving → exec (.lineEtx l) s =
      .next { s with rxst := .waiting, idleCnt := 0, events := s.events ++
        [.modeWrite, writes s (s.cfg.tokAck ++ [0x3A] ++ dec (s.crcAcc ^^^ 0xFFFFFFFF#32)), .modeRead] }) ∧
    (s.rxst = .waiting → exec (.lineEtx l) s =
      .next { s with fbuf := [], crcAcc := 0xFFFFFFFF#32, rxst := .idle, idleCnt := 0 })

/-- R154: line class ENQ in the receiver. -/
def Obligations.LineEnqEffect : Prop :=
  ∀ (s : State) (l : Bytes), s.role = .rx →
    (s.rxst = .idle → exec (.lineEnq l) s =
      .next { s with events := s.events ++ [.modeWrite, writes s s.cfg.capLine, .modeRead] }) ∧
    (s.rxst = .receiving → exec (.lineEnq l) s =
      .next { s with fbuf := s.fbuf ++ [l], crcAcc := crcUpdate s.crcAcc l }) ∧
    (s.rxst = .waiting → exec (.lineEnq l) s = .next s)

/-- R155: line class ACK in the receiver. -/
def Obligations.LineAckEffect : Prop :=
  ∀ (s : State) (l : Bytes), s.role = .rx →
    (s.rxst = .idle → exec (.lineAck l) s = .next s) ∧
    (s.rxst = .receiving → exec (.lineAck l) s =
      .next { s with fbuf := s.fbuf ++ [l], crcAcc := crcUpdate s.crcAcc l }) ∧
    (s.rxst = .waiting → exec (.lineAck l) s =
      .next { s with fbuf := [], crcAcc := 0xFFFFFFFF#32, rxst := .idle, idleCnt := 0,
                     events := s.events ++ [.deliver s.fbuf] })

/-- R156 and R157: line class OTHER, and ACKV as OTHER, in the receiver. -/
def Obligations.LineOtherEffect : Prop :=
  ∀ (s : State) (l v : Bytes) (i : Instr), i = .lineOther l ∨ i = .lineAckv l v → s.role = .rx →
    (s.rxst = .idle → exec i s = .next s) ∧
    (s.rxst = .receiving → exec i s =
      .next { s with fbuf := s.fbuf ++ [l], crcAcc := crcUpdate s.crcAcc l }) ∧
    (s.rxst = .waiting → exec i s = .next s)

/-- R195: while a send waits, an ACKV line sets `TX_RCV`, to MALFORMED for no digits, for -1 and for 4294967296; every
other class is ignored. -/
def Obligations.AckDetectorEffect : Prop :=
  ∀ (s : State) (l v : Bytes), s.role = .txWait →
    (∀ c, parseDec v = some c → exec (.lineAckv l v) s = .next { s with txRcv := .value c }) ∧
    (parseDec v = none → exec (.lineAckv l v) s = .next { s with txRcv := .malformed }) ∧
    (∀ w ∈ [[], [0x2D, 0x31], [0x34, 0x32, 0x39, 0x34, 0x39, 0x36, 0x37, 0x32, 0x39, 0x36]],
      exec (.lineAckv l w) s = .next { s with txRcv := .malformed }) ∧
    ∀ i ∈ [Instr.lineStx l, .lineEtx l, .lineEnq l, .lineAck l, .lineOther l], exec i s = .next s

/-- The last row of R150, as the model reads it (log entry 10, the model's choice): a receiver found in PROCESSING
first writes its acknowledgement and advances to WAITING; then the line is met there. -/
def Obligations.LineInProcessing : Prop :=
  ∀ (s : State) (l v : Bytes), s.role = .rx → s.rxst = .processing →
    ∀ i ∈ [Instr.lineStx l, .lineEtx l, .lineEnq l, .lineAck l, .lineAckv l v, .lineOther l],
      exec i s = exec i { s with rxst := .waiting, idleCnt := 0, events := s.events ++
        [.modeWrite, writes s (s.cfg.tokAck ++ [0x3A] ++ dec (s.crcAcc ^^^ 0xFFFFFFFF#32)), .modeRead] }

/-- R165: from IDLE only ENQ or STX does anything; ENQ produces output and leaves every register unchanged. -/
def Obligations.IdleContainment : Prop :=
  ∀ (s : State) (l : Bytes), s.role = .rx → s.rxst = .idle →
    ∃ t, exec (classify s.cfg l) s = .next t ∧
      (t = s ∨ lineClass (classify s.cfg l) = some (1, []) ∨
        (lineClass (classify s.cfg l) = some (3, []) ∧ ∃ es, t = { s with events := s.events ++ es }))

/-- R166: the lines `ETX, ETX, STX` resynchronize the receiver from every state it has between operations; from IDLE or
WAITING one `ETX` suffices, from RECEIVING it does not. -/
def Obligations.Resynchronization : Prop :=
  ∀ s : State, configValid s.cfg = true → s.role = .rx → s.rxst ≠ .processing →
    (∃ t, feed [s.cfg.tokEtx, s.cfg.tokEtx, s.cfg.tokStx] s = .next t ∧ t.rxst = .receiving ∧ t.fbuf = []) ∧
    (s.rxst = .idle ∨ s.rxst = .waiting →
      ∃ t, feed [s.cfg.tokEtx, s.cfg.tokStx] s = .next t ∧ t.rxst = .receiving ∧ t.fbuf = []) ∧
    (s.rxst = .receiving → ∃ t, feed [s.cfg.tokEtx, s.cfg.tokStx] s = .next t ∧ t.rxst = .waiting)

/-- R164, frame integrity: from IDLE, `STX, L..., ETX, ACK`, no line of `L` of class ETX, writes the acknowledgement of
the checksum of `L` and then delivers `L`. -/
def Obligations.FrameIntegrity : Prop :=
  ∀ (s : State) (L : List Bytes), configValid s.cfg = true → s.role = .rx → s.rxst = .idle →
    (∀ l ∈ L, isEtx s.cfg l = false) →
    feed ([s.cfg.tokStx] ++ L ++ [s.cfg.tokEtx, s.cfg.tokAck]) s =
      .next { s with fbuf := [], crcAcc := 0xFFFFFFFF#32, rxst := .idle, idleCnt := 0, events := s.events ++
        [.modeWrite, writes s (s.cfg.tokAck ++ [0x3A] ++ dec (crc32 L.flatten)), .modeRead, .deliver L] }

/-! ### RX_CHUNK -/

/-- R107: a chunk on a closed port is dropped; on an open port the fragment is written, each line runs as the
instruction of its class in split order, `ROLE` stays as it was through the lines, and a waiting sender then
evaluates (R196). -/
def Obligations.RxChunkEffect : Prop :=
  ∀ (s : State) (data : Bytes),
    (s.portOpen = false → exec (.rxChunk data) s = .next s) ∧
    (s.portOpen = true →
      ∃ t, feed (split s.frag data).1 { s with frag := (split s.frag data).2 } = .next t ∧ t.role = s.role ∧
        exec (.rxChunk data) s = .next (if s.role = .txWait then evaluated t else t))

/-! ### Signals -/

/-- R112, R271 and R274: a signal is relayed while the port is open, except RING, and changes nothing else. -/
def Obligations.SignalsRelayed : Prop :=
  ∀ (s : State) (a : Bool),
    (s.portOpen = false → ∀ i ∈ [Instr.signalBreak a, .signalClearToSend a, .signalDataSetReady a, .signalError a,
      .signalRing a, .signalRlsd a], exec i s = .next s) ∧
    (s.portOpen = true →
      exec (.signalBreak a) s = .next { s with events := s.events ++ [.notify .breakSignal a] } ∧
      exec (.signalClearToSend a) s = .next { s with events := s.events ++ [.notify .clearToSend a] } ∧
      exec (.signalDataSetReady a) s = .next { s with events := s.events ++ [.notify .dataSetReady a] } ∧
      exec (.signalError a) s = .next { s with events := s.events ++ [.notify .error a] } ∧
      exec (.signalRlsd a) s = .next { s with events := s.events ++ [.notify .rlsd a] } ∧
      exec (.signalRing a) s = .next s)

/-! ### Sender -/

/-- R190, R192, R193: SEND on an open port with no session starts the first attempt. -/
def Obligations.SendStartsAttempt : Prop :=
  ∀ (s : State) (m : Bytes), s.role = .rx → s.portOpen = true →
    exec (.send m) s = .next { s with
      txMsg := m, txExp := crc32 (stripSep m), txIter := 1, txRcv := .none, txWaitCnt := 0, frag := [], role := .txWait,
      events := s.events ++ attempt s m }

/-- R191: SEND on a closed port completes at once with `SEND_DONE(0)`; SEND while a session is active is refused. -/
def Obligations.SendPreconditions : Prop :=
  ∀ (s : State) (m : Bytes),
    (s.role = .rx → s.portOpen = false →
      exec (.send m) s = .next { s with events := s.events ++ [.sendDone false] }) ∧
    (s.role = .txWait → exec (.send m) s = .refused .sendBusy)

/-- R116, R203 and R199: CANCEL ends an active session with the ACK burst and does nothing without one. -/
def Obligations.CancelEffect : Prop :=
  ∀ s : State,
    (s.role = .txWait → exec .cancel s = .next (finished false s)) ∧ (s.role = .rx → exec .cancel s = .next s)

/-- R110, R197, R198: a TICK runs the deadline of a waiting session first: one tick more, or at the
`P_ACK_TICKS`-th the next attempt or the end; then the monitor. -/
def Obligations.TickDeadlineThenMonitor : Prop :=
  ∀ (s : State) (v : Levels),
    (s.role = .rx → exec (.tick v) s = .next (monitorTick v s)) ∧
    (s.role = .txWait → s.txWaitCnt + 1 ≠ s.cfg.ackTicks →
      exec (.tick v) s = .next (monitorTick v { s with txWaitCnt := s.txWaitCnt + 1 })) ∧
    (s.role = .txWait → s.txWaitCnt + 1 = s.cfg.ackTicks →
      exec (.tick v) s = .next (monitorTick v (retried { s with txWaitCnt := s.txWaitCnt + 1 })))

/-- R201, the retry bound: after a SEND on an open port, while no line of class ACKV arrives and no reconnect, RESET or
CANCEL occurs, attempt `n / P_ACK_TICKS + 1` waits after `n` ticks; the session ends at the
`P_MAX_ATTEMPTS * P_ACK_TICKS`-th tick, never later, with exactly `P_MAX_ATTEMPTS` attempt event runs (R193) followed by
the post-loop events and `SEND_DONE(0)`. Relayed signals, which no rule of the session emits, are left out of the
events compared. -/
def Obligations.RetryBound : Prop :=
  ∀ (s₀ s t : State) (m : Bytes) (n : Nat) (es : List Event), Invariants s₀ → s₀.portOpen = true →
    nextInstr s₀ = some (.send m) → step s₀ = .next s → Waits s n es t →
    n ≤ s.cfg.maxAttempts * s.cfg.ackTicks ∧
    (n < s.cfg.maxAttempts * s.cfg.ackTicks →
      t.role = .txWait ∧ t.txIter = n / s.cfg.ackTicks + 1 ∧ t.txWaitCnt = n % s.cfg.ackTicks ∧
      unsignalled (s.events ++ es) = (List.replicate (n / s.cfg.ackTicks + 1) (attempt s m)).flatten) ∧
    (n = s.cfg.maxAttempts * s.cfg.ackTicks →
      t.role = .rx ∧
      unsignalled (s.events ++ es) = (List.replicate s.cfg.maxAttempts (attempt s m)).flatten ++ ending s false)

/-- R200: a step reports success exactly when a session was waiting and the last ACKV line the step brought holds the
expected checksum. -/
def Obligations.SuccessExactlyOnMatch : Prop :=
  ∀ s t : State, Invariants s → step s = .next t →
    (.sendDone true ∈ t.events ↔
      s.role = .txWait ∧ lastAckIs s.cfg (nextLines s) s.txExp)

/-! ### Monitor -/

/-- R231: between polls a tick counts `POLL_CNT` down and `IDLE_CNT` up, and emits nothing. -/
def Obligations.TickBetweenPolls : Prop :=
  ∀ (s : State) (v : Levels), s.pollCnt ≠ 0 →
    monitorTick v s = { s with pollCnt := s.pollCnt - 1, idleCnt := idleAfter s }

/-- R233, R236, R238: a poll of an open port without a falling edge on CTS, DSR or RLSD, and without a due watchdog,
reloads `POLL_CNT`, takes the levels and emits nothing; a RING edge or a rising edge is no reason to reconnect. -/
def Obligations.QuietPoll : Prop :=
  ∀ (s : State) (v : Levels), s.pollCnt = 0 → s.portOpen = true → ¬ falls s.snap v →
    (s.role = .txWait ∨ idleAfter s < s.cfg.idleTicks) →
    monitorTick v s = { s with pollCnt := s.cfg.pollTicks - 1, idleCnt := idleAfter s, snap := v }

/-- R233, R236, R241: a falling edge on CTS, DSR or RLSD at a poll of an open port reconnects, whatever the oracle.
The outcomes drawn are those of `Opens`, which rests on log entry 8. -/
def Obligations.FallingEdgeReconnects : Prop :=
  ∀ (s : State) (v : Levels) (n : Nat) (ok : Bool) (rest : List OpenOutcome),
    s.pollCnt = 0 → s.portOpen = true → falls s.snap v → Opens s.cfg.openMaxTries s.oracle n ok rest →
    monitorTick v s = reconnected { s with pollCnt := s.cfg.pollTicks - 1, snap := v } n ok rest

/-- R238: the idle watchdog reconnects at a poll without a falling edge when `IDLE_CNT` has reached the threshold.
The outcomes drawn are those of `Opens`, which rests on log entry 8. -/
def Obligations.WatchdogReconnects : Prop :=
  ∀ (s : State) (v : Levels) (n : Nat) (ok : Bool) (rest : List OpenOutcome),
    s.pollCnt = 0 → s.portOpen = true → s.role = .rx → ¬ falls s.snap v → s.cfg.idleTicks ≤ idleAfter s →
    Opens s.cfg.openMaxTries s.oracle n ok rest →
    monitorTick v s = reconnected { s with pollCnt := s.cfg.pollTicks - 1, snap := v } n ok rest

/-- R233, R234: a poll of a closed port opens it, whatever the oracle. The outcomes drawn are those of `Opens`,
which rests on log entry 8. -/
def Obligations.PollOpensClosedPort : Prop :=
  ∀ (s : State) (v : Levels) (n : Nat) (ok : Bool) (rest : List OpenOutcome),
    s.pollCnt = 0 → s.portOpen = false → Opens s.cfg.openMaxTries s.oracle n ok rest →
    monitorTick v s = afterOpening { s with pollCnt := s.cfg.pollTicks - 1 } n ok rest

/-- R234: in every state that allows at least one try there is exactly one way the open loop goes, with 1 to
`P_OPEN_MAX_TRIES` opens, and `openPort` gives the registers, the events and the outcomes left that it says. That an open
after the end of the list of outcomes is answered `OK` is the model's reading of R86 (log entry 8). -/
def Obligations.OpenLoopBounded : Prop :=
  ∀ s : State, 1 ≤ s.cfg.openMaxTries →
    ∃ n ok rest, Opens s.cfg.openMaxTries s.oracle n ok rest ∧ 1 ≤ n ∧ n ≤ s.cfg.openMaxTries ∧
      openPort s = afterOpening s n ok rest ∧
      ∀ n' ok' rest', Opens s.cfg.openMaxTries s.oracle n' ok' rest' → n' = n ∧ ok' = ok ∧ rest' = rest

/-- R118, R240 and R234: IOFAULT reconnects an open port, whatever the oracle, and does nothing on a closed one. That an
open after the end of the list of outcomes is answered `OK` is the model's reading of R86 (log entry 8). -/
def Obligations.IofaultReconnects : Prop :=
  ∀ (s : State) (n : Nat) (ok : Bool) (rest : List OpenOutcome),
    (s.portOpen = false → exec .iofault s = .next s) ∧
    (s.portOpen = true → Opens s.cfg.openMaxTries s.oracle n ok rest →
      exec .iofault s = .next (reconnected s n ok rest))

/-- R312: from the reset state, under any legal configuration, the first TICK opens the port; with an `OK` open it emits
`OPEN, PURGE, MODE_READ`. Until then chunks and signals are dropped and a SEND fails at once. -/
def Obligations.StartupOpensPort : Prop :=
  ∀ (c : Config) (v : Levels) (os : List OpenOutcome) (data m : Bytes) (a : Bool), configValid c = true →
    exec (.tick v) { State.reset with cfg := c, oracle := .ok :: os } =
      .next { State.reset with
        cfg := c, oracle := os, portOpen := true, pollCnt := c.pollTicks - 1,
        events := [.openPort c.baud c.dataBits c.stopBits c.parity, .purge, .modeRead] } ∧
    exec (.rxChunk data) { State.reset with cfg := c } = .next { State.reset with cfg := c } ∧
    (∀ i ∈ [Instr.signalBreak a, .signalClearToSend a, .signalDataSetReady a, .signalError a, .signalRing a,
      .signalRlsd a], exec i { State.reset with cfg := c } = .next { State.reset with cfg := c }) ∧
    exec (.send m) { State.reset with cfg := c } = .next { State.reset with cfg := c, events := [.sendDone false] }

/-! ### Reset, status, configuration -/

/-- R101 and R310: RESET sets every register to its reset value, emits nothing, and STATUS then reads 0x0000. -/
def Obligations.ResetEffect : Prop :=
  ∀ s : State, ∃ t, exec .reset s = .next t ∧
    t = { frag := [], rxst := .idle, fbuf := [], crcAcc := 0xFFFFFFFF#32, role := .rx, portOpen := false, txIter := 0,
          txMsg := [], txExp := 0, txRcv := .none, txWaitCnt := 0, snap := 0, pollCnt := 0, idleCnt := 0,
          cfg := s.cfg, oracle := s.oracle, events := s.events, inputs := s.inputs } ∧
    status t = 0x0000#16

/-- R37: the fields of STATUS; between operations RXST never reads 2 there and the tag reads NONE. -/
def Obligations.StatusFields : Prop :=
  ∀ s : State,
    (status s).extractLsb' 0 2 = s.rxst.code ∧ (status s).getLsbD 2 = decide (s.role = .txWait) ∧
    (status s).getLsbD 3 = s.portOpen ∧ (status s).extractLsb' 4 4 = s.snap ∧
    (s.txIter < 8 → ((status s).extractLsb' 8 3).toNat = s.txIter) ∧
    (status s).extractLsb' 11 2 = s.txRcv.tag ∧ (status s).extractLsb' 13 3 = 0 ∧
    (Invariants s → (status s).extractLsb' 0 2 ≠ 2 ∧ (status s).extractLsb' 11 2 = 0)

/-- R8: the configuration check accepts exactly the constraints of the rule, and a step under any other configuration
is refused with BAD_CONFIG, whatever is presented. -/
def Obligations.ConfigurationChecked : Prop :=
  (∀ c : Config, configValid c = true ↔ Constraints c) ∧
  ∀ s : State, ¬ Constraints s.cfg → step s = .refused .badConfig

/-! ### Steps -/

/-- R100: a step runs the instruction of the presented command byte, with an empty output list and the input's own
oracle; the result is accepted when it keeps the capacities (R106) and refused with CAPACITY when not; a refusal of the
instruction is the step's. The model's own in this: the queue the input is taken from, and that the word placed by
`withFetchWord` is run so (log entries 2 and 16); that the message bound is on the `TX_MSG` of the result (log entry 11);
that a command beside an attached string it does not read runs all the same (log entry 5). -/
def Obligations.StepRunsCommand : Prop :=
  ∀ (s : State) (b : Byte) (operand : Bytes) (os : List OpenOutcome) (rest : List Input),
    configValid s.cfg = true → s.inputs = ⟨.command b operand, os⟩ :: rest →
    (∀ t, exec (decodeCommand b operand) { s with inputs := rest, oracle := os, events := [] } = .next t →
      (Within t → step s = .next { t with oracle := [] }) ∧ (¬ Within t → step s = .refused .capacity)) ∧
    (∀ r, exec (decodeCommand b operand) { s with inputs := rest, oracle := os, events := [] } = .refused r →
      step s = .refused r) ∧
    ∀ w, step (s.withFetchWord 8 w) = step { s with inputs := ⟨.command (BitVec.ofNat 8 w) [], []⟩ :: s.inputs }

/-- The model's direct line (log entry 4): on an open port a step runs the line's instruction and the evaluation that
ends a delivery; on a closed port the line is dropped; bytes with a separator are refused by name. -/
def Obligations.StepRunsLine : Prop :=
  ∀ (s : State) (l : Bytes) (os : List OpenOutcome) (rest : List Input),
    configValid s.cfg = true → s.inputs = ⟨.line l, os⟩ :: rest →
    (isLine l = false → step s = .refused .notALine) ∧
    (isLine l = true → s.portOpen = false → Within s →
      step s = .next { s with inputs := rest, oracle := [], events := [] }) ∧
    (isLine l = true → s.portOpen = true →
      ∃ t, exec (classify s.cfg l) { s with inputs := rest, oracle := os, events := [] } = .next t ∧
        (Within (if t.role = .txWait then evaluated t else t) →
          step s = .next { (if t.role = .txWait then evaluated t else t) with oracle := [] }))

/-- R295: with nothing presented the block holds its state, and there is no event. The step with nothing presented and the
output list it empties are the model's choice (log entries 2 and 7). -/
def Obligations.IdleStepHoldsState : Prop :=
  ∀ s : State, configValid s.cfg = true → s.inputs = [] → step s = .next { s with events := [] }

/-- R64: no step changes the configuration. That a step takes exactly the input first in the queue is the model's choice
(log entry 2). -/
def Obligations.ConfigurationFixed : Prop :=
  ∀ s t : State, step s = .next t → t.cfg = s.cfg ∧ t.inputs = s.inputs.tail

/-- R39: every step keeps the nine invariants, from every state that has them. -/
def Obligations.StepKeepsInvariant : Prop :=
  ∀ s t : State, Invariants s → step s = .next t → Invariants t

/-- R39: the invariants hold at reset. -/
def Obligations.ResetHasInvariant : Prop := Invariants State.reset

/-- R30: in every session `TX_EXP` is the checksum of `TX_MSG` without its separators, and every step keeps it so. -/
def Obligations.StepKeepsExpectedChecksum : Prop :=
  ∀ s t : State, (s.role = .txWait → s.txExp = crc32 (stripSep s.txMsg)) → step s = .next t →
    (t.role = .txWait → t.txExp = crc32 (stripSep t.txMsg))

/-- R138, R243: whenever a step emits `PURGE`, the fragment is empty after it. -/
def Obligations.PurgeClearsFragment : Prop :=
  ∀ s t : State, step s = .next t → .purge ∈ t.events → t.frag = []

/-- R61: in the events of every step, every `WRITE` is between `MODE_WRITE` and `MODE_READ`. -/
def Obligations.WritesBracketed : Prop :=
  ∀ s t : State, step s = .next t → bracketed false t.events = true

/-- R202, R242: a step changes a receiver register only by RESET, by a reconnect, or by lines given to the receiver
while `ROLE = RX` on an open port. -/
def Obligations.ReceiverWriters : Prop :=
  ∀ s t : State, step s = .next t →
    (t.rxst = s.rxst ∧ t.fbuf = s.fbuf ∧ t.crcAcc = s.crcAcc) ∨ nextInstr s = some .reset ∨ .close ∈ t.events ∨
    (s.role = .rx ∧ s.portOpen = true ∧ nextLines s ≠ [])

/-- R105: `PORT_OPEN` changes only with the block's own `OPEN` or `CLOSE`, or by RESET. -/
def Obligations.PortChangesWithEvents : Prop :=
  ∀ s t : State, step s = .next t →
    t.portOpen = s.portOpen ∨ nextInstr s = some .reset ∨
      (s.portOpen = true ∧ t.portOpen = false ∧ .close ∈ t.events) ∨
      (s.portOpen = false ∧ t.portOpen = true ∧
        .openPort s.cfg.baud s.cfg.dataBits s.cfg.stopBits s.cfg.parity ∈ t.events)

/-- R233, R286: no step reconnects more than once, and a step that closes the port ends any session. -/
def Obligations.AtMostOneReconnect : Prop :=
  ∀ s t : State, step s = .next t → t.events.count .close ≤ 1 ∧ (.close ∈ t.events → t.role = .rx)

/-- R283, R11: in a run, a refused step writes no register and emits no event, and the mark is set exactly when some
step was refused. That the refused operation leaves the queue and the run goes on from the state before it is the model's
choice (log entry 14). -/
def Obligations.RefusalsMarkTheRun : Prop :=
  (∀ (r : Run) (q : Refusal), step r.state = .refused q →
    r.advance.state = { r.state with inputs := r.state.inputs.tail } ∧ r.advance.history = r.history ∧
    r.advance.refusedMark = true) ∧
  ∀ (n : Nat) (s : State),
    (Run.advanceN n (Run.start s)).refusedMark = true ↔
      ∃ x ∈ (Run.advanceN n (Run.start s)).trace, ∃ q, x.verdict = .refused q

/-- R136 over a run: from an empty fragment, while no step resets or purges, the lines yielded and the fragment hold
exactly the bytes of the inbound stream that are no separators. That the inbound stream of R51 is the chunks taken on an
open port is the model's reading (log entry 15), and how a run goes on after a refusal its choice (log entry 14). -/
def Obligations.InboundBytesKept : Prop :=
  ∀ (n : Nat) (s : State), s.frag = [] →
    (∀ x ∈ (Run.advanceN n (Run.start s)).trace, .purge ∉ x.verdict.events ∧ nextInstr x.before ≠ some .reset) →
    (Run.advanceN n (Run.start s)).lineStream.flatten ++ (Run.advanceN n (Run.start s)).state.frag =
      stripSep (Run.advanceN n (Run.start s)).inbound

/-- R293: a step of one instance leaves every other instance as it is. -/
def Obligations.InstancesIndependent : Prop :=
  ∀ (k j : Nat) (ss ts : List State), stepInstance k ss = some ts → j ≠ k → ts[j]? = ss[j]?

/-- R86: lines of assembler text and the inputs they stand for: TICK 1011 open=FAIL,OK; WAIT 2, 0001; RXL "A". -/
def Obligations.AssemblerExamples : Prop :=
  assemble ([0x54, 0x49, 0x43, 0x4B, 0x20, 0x31, 0x30, 0x31, 0x31, 0x20, 0x6F, 0x70, 0x65, 0x6E, 0x3D]
    ++ [0x46, 0x41, 0x49, 0x4C, 0x2C, 0x4F, 0x4B]) = some [⟨.command 0x2B#8 [], [.fail, .ok]⟩] ∧
  assemble [0x57, 0x41, 0x49, 0x54, 0x20, 0x32, 0x2C, 0x20, 0x30, 0x30, 0x30, 0x31] =
    some [⟨.command 0x21#8 [], []⟩, ⟨.command 0x21#8 [], []⟩] ∧
  assemble [0x52, 0x58, 0x4C, 0x20, 0x22, 0x41, 0x22] = some [⟨.command 0x10#8 [0x41, 0x0A], []⟩]
end

