-- ==== Sys2Proof/Laws/Bytes.lean ====
section
/-! SUPPORT. Small lemmas about byte strings: separators, prefixes, the checksum register, and the splitter. -/

namespace Sys2Proof

/-! ### Separators and lines -/

@[simp] theorem isLine_nil : isLine [] = true := rfl

@[simp] theorem isLine_cons (b : Byte) (l : Bytes) : isLine (b :: l) = (!isSep b && isLine l) := rfl

@[simp] theorem isLine_append (a b : Bytes) : isLine (a ++ b) = (isLine a && isLine b) := by simp [isLine]

@[simp] theorem stripSep_nil : stripSep [] = [] := rfl

@[simp] theorem stripSep_append (a b : Bytes) : stripSep (a ++ b) = stripSep a ++ stripSep b := by simp [stripSep]

@[simp] theorem stripSep_cons (b : Byte) (l : Bytes) :
    stripSep (b :: l) = if isSep b then stripSep l else b :: stripSep l := by
  cases h : isSep b <;> simp [stripSep, h]

theorem stripSep_of_isLine {l : Bytes} (h : isLine l = true) : stripSep l = l := by
  induction l with
  | nil => rfl
  | cons b l ih => simp_all

theorem isLine_stripSep (l : Bytes) : isLine (stripSep l) = true := by
  induction l with
  | nil => rfl
  | cons b l ih => by_cases hb : isSep b = true <;> simp_all

/-! ### Prefixes -/

@[simp] theorem afterPrefix_append (p v : Bytes) : afterPrefix p (p ++ v) = some v := by
  induction p with
  | nil => rfl
  | cons b p ih => simpa [afterPrefix] using ih

theorem afterPrefix_eq_some {p l v : Bytes} : afterPrefix p l = some v ↔ l = p ++ v := by
  constructor
  · induction p generalizing l with
    | nil => intro h; simpa [afterPrefix] using h
    | cons b p ih =>
      cases l with
      | nil => simp [afterPrefix]
      | cons a l =>
        simp only [afterPrefix]
        split
        · rename_i hb; intro h; rw [hb, ih h]; rfl
        · simp
  · rintro rfl; exact afterPrefix_append p v

theorem afterPrefix_eq_none {p l : Bytes} : afterPrefix p l = none ↔ ¬ p <+: l := by
  constructor
  · rintro h ⟨v, rfl⟩; simp at h
  · intro h
    cases hv : afterPrefix p l with
    | none => rfl
    | some v => exact absurd ⟨v, (afterPrefix_eq_some.1 hv).symm⟩ h

/-! ### The checksum register -/

@[simp] theorem crcUpdate_nil (c : U32) : crcUpdate c [] = c := rfl

/-- Chaining (R161). -/
theorem crcUpdate_append (c : U32) (a b : Bytes) : crcUpdate c (a ++ b) = crcUpdate (crcUpdate c a) b := by
  simp [crcUpdate, List.foldl_append]

/-! ### The splitter -/

namespace Machine

@[simp] theorem segments_nil : segments [] = ([], []) := rfl

theorem segments_cons_byte {b : Byte} (h : isSep b = false) (l : Bytes) :
    segments (b :: l) = (b :: (segments l).1, (segments l).2) := by simp [segments, h]

theorem segments_cons_sep {b : Byte} (h : isSep b = true) (l : Bytes) :
    segments (b :: l) = if startsWithSep l then segments l else ([], (segments l).1 :: (segments l).2) := by
  simp only [segments, h, if_true]

/-- A chunk that begins with a separator has an empty first segment and at least one more (R131). -/
theorem segments_of_startsWithSep {l : Bytes} (h : startsWithSep l = true) :
    (segments l).1 = [] ∧ (segments l).2 ≠ [] := by
  induction l with
  | nil => simp [startsWithSep] at h
  | cons b l ih =>
    rw [segments_cons_sep h]
    split
    · rename_i hl; exact ih hl
    · simp

/-- The segments hold the bytes that are no separators, in order (R137). -/
theorem segments_flatten (l : Bytes) : (segments l).1 ++ (segments l).2.flatten = stripSep l := by
  induction l with
  | nil => rfl
  | cons b l ih =>
    by_cases hb : isSep b = true
    · rw [segments_cons_sep hb]; split <;> simp_all
    · simp only [Bool.not_eq_true] at hb; rw [segments_cons_byte hb]; simp_all

/-- No segment holds a separator (R131). -/
theorem segments_isLine (l : Bytes) : isLine (segments l).1 = true ∧ ∀ x ∈ (segments l).2, isLine x = true := by
  induction l with
  | nil => simp
  | cons b l ih =>
    by_cases hb : isSep b = true
    · rw [segments_cons_sep hb]; split <;> simp_all
    · simp only [Bool.not_eq_true] at hb; rw [segments_cons_byte hb]; simp_all

@[simp] theorem unlast_nil {α : Type} (x : α) : unlast x [] = ([], x) := rfl

@[simp] theorem unlast_cons {α : Type} (x y : α) (ys : List α) :
    unlast x (y :: ys) = (x :: (unlast y ys).1, (unlast y ys).2) := rfl

/-- `unlast` takes a list apart at its end. -/
theorem unlast_append {α : Type} (x : α) (ys : List α) : (unlast x ys).1 ++ [(unlast x ys).2] = x :: ys := by
  induction ys generalizing x with
  | nil => rfl
  | cons y ys ih => simp [ih]

theorem split_eq (frag data : Bytes) : split frag data = unlast (frag ++ (segments data).1) (segments data).2 := rfl

/-- Every byte of a chunk that is no separator, and every byte of the fragment, is in one line or in the new
fragment (R137). -/
theorem split_flatten (frag data : Bytes) :
    (split frag data).1.flatten ++ (split frag data).2 = frag ++ stripSep data := by
  have h := congrArg List.flatten (unlast_append (frag ++ (segments data).1) (segments data).2)
  simpa [split_eq, ← segments_flatten] using h

/-- The lines and the new fragment hold no separator when the fragment holds none (R39 item 4). -/
theorem split_isLine {frag : Bytes} (hf : isLine frag = true) (data : Bytes) :
    (∀ x ∈ (split frag data).1, isLine x = true) ∧ isLine (split frag data).2 = true := by
  obtain ⟨h1, h2⟩ := segments_isLine data
  have hall : ∀ x ∈ (frag ++ (segments data).1) :: (segments data).2, isLine x = true := by
    intro x hx
    rcases List.mem_cons.1 hx with rfl | hx
    · simp [hf, h1]
    · exact h2 x hx
  rw [← unlast_append] at hall
  exact ⟨fun x hx => hall x (List.mem_append_left _ hx), hall _ (by simp [split_eq])⟩

end Machine

end Sys2Proof
end

