-- ==== Sys2Proof/Laws/State.lean ====
section
/-! SUPPORT. One lemma per field per update of State, true by unfolding, for every shared operation that is one record
update; and for the writes of `RXST`, which clear the idle counter when they change it. -/

namespace Sys2Proof.Machine

/-! ### emits -/

@[simp] theorem emits_frag (es : List Event) (s : State) : (emits es s).frag = s.frag := rfl
@[simp] theorem emits_rxst (es : List Event) (s : State) : (emits es s).rxst = s.rxst := rfl
@[simp] theorem emits_fbuf (es : List Event) (s : State) : (emits es s).fbuf = s.fbuf := rfl
@[simp] theorem emits_crcAcc (es : List Event) (s : State) : (emits es s).crcAcc = s.crcAcc := rfl
@[simp] theorem emits_role (es : List Event) (s : State) : (emits es s).role = s.role := rfl
@[simp] theorem emits_portOpen (es : List Event) (s : State) : (emits es s).portOpen = s.portOpen := rfl
@[simp] theorem emits_txIter (es : List Event) (s : State) : (emits es s).txIter = s.txIter := rfl
@[simp] theorem emits_txMsg (es : List Event) (s : State) : (emits es s).txMsg = s.txMsg := rfl
@[simp] theorem emits_txExp (es : List Event) (s : State) : (emits es s).txExp = s.txExp := rfl
@[simp] theorem emits_txRcv (es : List Event) (s : State) : (emits es s).txRcv = s.txRcv := rfl
@[simp] theorem emits_txWaitCnt (es : List Event) (s : State) : (emits es s).txWaitCnt = s.txWaitCnt := rfl
@[simp] theorem emits_snap (es : List Event) (s : State) : (emits es s).snap = s.snap := rfl
@[simp] theorem emits_pollCnt (es : List Event) (s : State) : (emits es s).pollCnt = s.pollCnt := rfl
@[simp] theorem emits_idleCnt (es : List Event) (s : State) : (emits es s).idleCnt = s.idleCnt := rfl
@[simp] theorem emits_cfg (es : List Event) (s : State) : (emits es s).cfg = s.cfg := rfl
@[simp] theorem emits_oracle (es : List Event) (s : State) : (emits es s).oracle = s.oracle := rfl
@[simp] theorem emits_events (es : List Event) (s : State) : (emits es s).events = s.events ++ es := rfl
@[simp] theorem emits_inputs (es : List Event) (s : State) : (emits es s).inputs = s.inputs := rfl

/-! ### emit -/

@[simp] theorem emit_frag (e : Event) (s : State) : (emit e s).frag = s.frag := rfl
@[simp] theorem emit_rxst (e : Event) (s : State) : (emit e s).rxst = s.rxst := rfl
@[simp] theorem emit_fbuf (e : Event) (s : State) : (emit e s).fbuf = s.fbuf := rfl
@[simp] theorem emit_crcAcc (e : Event) (s : State) : (emit e s).crcAcc = s.crcAcc := rfl
@[simp] theorem emit_role (e : Event) (s : State) : (emit e s).role = s.role := rfl
@[simp] theorem emit_portOpen (e : Event) (s : State) : (emit e s).portOpen = s.portOpen := rfl
@[simp] theorem emit_txIter (e : Event) (s : State) : (emit e s).txIter = s.txIter := rfl
@[simp] theorem emit_txMsg (e : Event) (s : State) : (emit e s).txMsg = s.txMsg := rfl
@[simp] theorem emit_txExp (e : Event) (s : State) : (emit e s).txExp = s.txExp := rfl
@[simp] theorem emit_txRcv (e : Event) (s : State) : (emit e s).txRcv = s.txRcv := rfl
@[simp] theorem emit_txWaitCnt (e : Event) (s : State) : (emit e s).txWaitCnt = s.txWaitCnt := rfl
@[simp] theorem emit_snap (e : Event) (s : State) : (emit e s).snap = s.snap := rfl
@[simp] theorem emit_pollCnt (e : Event) (s : State) : (emit e s).pollCnt = s.pollCnt := rfl
@[simp] theorem emit_idleCnt (e : Event) (s : State) : (emit e s).idleCnt = s.idleCnt := rfl
@[simp] theorem emit_cfg (e : Event) (s : State) : (emit e s).cfg = s.cfg := rfl
@[simp] theorem emit_oracle (e : Event) (s : State) : (emit e s).oracle = s.oracle := rfl
@[simp] theorem emit_events (e : Event) (s : State) : (emit e s).events = s.events ++ [e] := rfl
@[simp] theorem emit_inputs (e : Event) (s : State) : (emit e s).inputs = s.inputs := rfl

/-! ### clearFrame -/

@[simp] theorem clearFrame_frag (s : State) : (clearFrame s).frag = s.frag := rfl
@[simp] theorem clearFrame_rxst (s : State) : (clearFrame s).rxst = s.rxst := rfl
@[simp] theorem clearFrame_fbuf (s : State) : (clearFrame s).fbuf = [] := rfl
@[simp] theorem clearFrame_crcAcc (s : State) : (clearFrame s).crcAcc = crcInit := rfl
@[simp] theorem clearFrame_role (s : State) : (clearFrame s).role = s.role := rfl
@[simp] theorem clearFrame_portOpen (s : State) : (clearFrame s).portOpen = s.portOpen := rfl
@[simp] theorem clearFrame_txIter (s : State) : (clearFrame s).txIter = s.txIter := rfl
@[simp] theorem clearFrame_txMsg (s : State) : (clearFrame s).txMsg = s.txMsg := rfl
@[simp] theorem clearFrame_txExp (s : State) : (clearFrame s).txExp = s.txExp := rfl
@[simp] theorem clearFrame_txRcv (s : State) : (clearFrame s).txRcv = s.txRcv := rfl
@[simp] theorem clearFrame_txWaitCnt (s : State) : (clearFrame s).txWaitCnt = s.txWaitCnt := rfl
@[simp] theorem clearFrame_snap (s : State) : (clearFrame s).snap = s.snap := rfl
@[simp] theorem clearFrame_pollCnt (s : State) : (clearFrame s).pollCnt = s.pollCnt := rfl
@[simp] theorem clearFrame_idleCnt (s : State) : (clearFrame s).idleCnt = s.idleCnt := rfl
@[simp] theorem clearFrame_cfg (s : State) : (clearFrame s).cfg = s.cfg := rfl
@[simp] theorem clearFrame_oracle (s : State) : (clearFrame s).oracle = s.oracle := rfl
@[simp] theorem clearFrame_events (s : State) : (clearFrame s).events = s.events := rfl
@[simp] theorem clearFrame_inputs (s : State) : (clearFrame s).inputs = s.inputs := rfl

/-! ### clearSession -/

@[simp] theorem clearSession_frag (s : State) : (clearSession s).frag = s.frag := rfl
@[simp] theorem clearSession_rxst (s : State) : (clearSession s).rxst = s.rxst := rfl
@[simp] theorem clearSession_fbuf (s : State) : (clearSession s).fbuf = s.fbuf := rfl
@[simp] theorem clearSession_crcAcc (s : State) : (clearSession s).crcAcc = s.crcAcc := rfl
@[simp] theorem clearSession_role (s : State) : (clearSession s).role = .rx := rfl
@[simp] theorem clearSession_portOpen (s : State) : (clearSession s).portOpen = s.portOpen := rfl
@[simp] theorem clearSession_txIter (s : State) : (clearSession s).txIter = 0 := rfl
@[simp] theorem clearSession_txMsg (s : State) : (clearSession s).txMsg = [] := rfl
@[simp] theorem clearSession_txExp (s : State) : (clearSession s).txExp = 0#32 := rfl
@[simp] theorem clearSession_txRcv (s : State) : (clearSession s).txRcv = .none := rfl
@[simp] theorem clearSession_txWaitCnt (s : State) : (clearSession s).txWaitCnt = 0 := rfl
@[simp] theorem clearSession_snap (s : State) : (clearSession s).snap = s.snap := rfl
@[simp] theorem clearSession_pollCnt (s : State) : (clearSession s).pollCnt = s.pollCnt := rfl
@[simp] theorem clearSession_idleCnt (s : State) : (clearSession s).idleCnt = s.idleCnt := rfl
@[simp] theorem clearSession_cfg (s : State) : (clearSession s).cfg = s.cfg := rfl
@[simp] theorem clearSession_oracle (s : State) : (clearSession s).oracle = s.oracle := rfl
@[simp] theorem clearSession_events (s : State) : (clearSession s).events = s.events := rfl
@[simp] theorem clearSession_inputs (s : State) : (clearSession s).inputs = s.inputs := rfl

/-! ### opened -/

@[simp] theorem opened_frag (s : State) : (opened s).frag = [] := rfl
@[simp] theorem opened_rxst (s : State) : (opened s).rxst = s.rxst := rfl
@[simp] theorem opened_fbuf (s : State) : (opened s).fbuf = s.fbuf := rfl
@[simp] theorem opened_crcAcc (s : State) : (opened s).crcAcc = s.crcAcc := rfl
@[simp] theorem opened_role (s : State) : (opened s).role = s.role := rfl
@[simp] theorem opened_portOpen (s : State) : (opened s).portOpen = true := rfl
@[simp] theorem opened_txIter (s : State) : (opened s).txIter = s.txIter := rfl
@[simp] theorem opened_txMsg (s : State) : (opened s).txMsg = s.txMsg := rfl
@[simp] theorem opened_txExp (s : State) : (opened s).txExp = s.txExp := rfl
@[simp] theorem opened_txRcv (s : State) : (opened s).txRcv = s.txRcv := rfl
@[simp] theorem opened_txWaitCnt (s : State) : (opened s).txWaitCnt = s.txWaitCnt := rfl
@[simp] theorem opened_snap (s : State) : (opened s).snap = 0b0000#4 := rfl
@[simp] theorem opened_pollCnt (s : State) : (opened s).pollCnt = s.pollCnt := rfl
@[simp] theorem opened_idleCnt (s : State) : (opened s).idleCnt = 0 := rfl
@[simp] theorem opened_cfg (s : State) : (opened s).cfg = s.cfg := rfl
@[simp] theorem opened_oracle (s : State) : (opened s).oracle = s.oracle := rfl
@[simp] theorem opened_events (s : State) : (opened s).events = s.events ++ [.purge, .modeRead] := rfl
@[simp] theorem opened_inputs (s : State) : (opened s).inputs = s.inputs := rfl

/-! ### resetRegisters -/

@[simp] theorem resetRegisters_frag (s : State) : (resetRegisters s).frag = [] := rfl
@[simp] theorem resetRegisters_rxst (s : State) : (resetRegisters s).rxst = .idle := rfl
@[simp] theorem resetRegisters_fbuf (s : State) : (resetRegisters s).fbuf = [] := rfl
@[simp] theorem resetRegisters_crcAcc (s : State) : (resetRegisters s).crcAcc = 0xFFFFFFFF#32 := rfl
@[simp] theorem resetRegisters_role (s : State) : (resetRegisters s).role = .rx := rfl
@[simp] theorem resetRegisters_portOpen (s : State) : (resetRegisters s).portOpen = false := rfl
@[simp] theorem resetRegisters_txIter (s : State) : (resetRegisters s).txIter = 0 := rfl
@[simp] theorem resetRegisters_txMsg (s : State) : (resetRegisters s).txMsg = [] := rfl
@[simp] theorem resetRegisters_txExp (s : State) : (resetRegisters s).txExp = 0#32 := rfl
@[simp] theorem resetRegisters_txRcv (s : State) : (resetRegisters s).txRcv = .none := rfl
@[simp] theorem resetRegisters_txWaitCnt (s : State) : (resetRegisters s).txWaitCnt = 0 := rfl
@[simp] theorem resetRegisters_snap (s : State) : (resetRegisters s).snap = 0b0000#4 := rfl
@[simp] theorem resetRegisters_pollCnt (s : State) : (resetRegisters s).pollCnt = 0 := rfl
@[simp] theorem resetRegisters_idleCnt (s : State) : (resetRegisters s).idleCnt = 0 := rfl
@[simp] theorem resetRegisters_cfg (s : State) : (resetRegisters s).cfg = s.cfg := rfl
@[simp] theorem resetRegisters_oracle (s : State) : (resetRegisters s).oracle = s.oracle := rfl
@[simp] theorem resetRegisters_events (s : State) : (resetRegisters s).events = s.events := rfl
@[simp] theorem resetRegisters_inputs (s : State) : (resetRegisters s).inputs = s.inputs := rfl

/-! ### beginOp -/

@[simp] theorem beginOp_frag (opens : List OpenOutcome) (rest : List Input) (s : State) : (beginOp opens rest s).frag = s.frag := rfl
@[simp] theorem beginOp_rxst (opens : List OpenOutcome) (rest : List Input) (s : State) : (beginOp opens rest s).rxst = s.rxst := rfl
@[simp] theorem beginOp_fbuf (opens : List OpenOutcome) (rest : List Input) (s : State) : (beginOp opens rest s).fbuf = s.fbuf := rfl
@[simp] theorem beginOp_crcAcc (opens : List OpenOutcome) (rest : List Input) (s : State) : (beginOp opens rest s).crcAcc = s.crcAcc := rfl
@[simp] theorem beginOp_role (opens : List OpenOutcome) (rest : List Input) (s : State) : (beginOp opens rest s).role = s.role := rfl
@[simp] theorem beginOp_portOpen (opens : List OpenOutcome) (rest : List Input) (s : State) : (beginOp opens rest s).portOpen = s.portOpen := rfl
@[simp] theorem beginOp_txIter (opens : List OpenOutcome) (rest : List Input) (s : State) : (beginOp opens rest s).txIter = s.txIter := rfl
@[simp] theorem beginOp_txMsg (opens : List OpenOutcome) (rest : List Input) (s : State) : (beginOp opens rest s).txMsg = s.txMsg := rfl
@[simp] theorem beginOp_txExp (opens : List OpenOutcome) (rest : List Input) (s : State) : (beginOp opens rest s).txExp = s.txExp := rfl
@[simp] theorem beginOp_txRcv (opens : List OpenOutcome) (rest : List Input) (s : State) : (beginOp opens rest s).txRcv = s.txRcv := rfl
@[simp] theorem beginOp_txWaitCnt (opens : List OpenOutcome) (rest : List Input) (s : State) : (beginOp opens rest s).txWaitCnt = s.txWaitCnt := rfl
@[simp] theorem beginOp_snap (opens : List OpenOutcome) (rest : List Input) (s : State) : (beginOp opens rest s).snap = s.snap := rfl
@[simp] theorem beginOp_pollCnt (opens : List OpenOutcome) (rest : List Input) (s : State) : (beginOp opens rest s).pollCnt = s.pollCnt := rfl
@[simp] theorem beginOp_idleCnt (opens : List OpenOutcome) (rest : List Input) (s : State) : (beginOp opens rest s).idleCnt = s.idleCnt := rfl
@[simp] theorem beginOp_cfg (opens : List OpenOutcome) (rest : List Input) (s : State) : (beginOp opens rest s).cfg = s.cfg := rfl
@[simp] theorem beginOp_oracle (opens : List OpenOutcome) (rest : List Input) (s : State) : (beginOp opens rest s).oracle = opens := rfl
@[simp] theorem beginOp_events (opens : List OpenOutcome) (rest : List Input) (s : State) : (beginOp opens rest s).events = [] := rfl
@[simp] theorem beginOp_inputs (opens : List OpenOutcome) (rest : List Input) (s : State) : (beginOp opens rest s).inputs = rest := rfl

/-! ### endOp -/

@[simp] theorem endOp_frag (s : State) : (endOp s).frag = s.frag := rfl
@[simp] theorem endOp_rxst (s : State) : (endOp s).rxst = s.rxst := rfl
@[simp] theorem endOp_fbuf (s : State) : (endOp s).fbuf = s.fbuf := rfl
@[simp] theorem endOp_crcAcc (s : State) : (endOp s).crcAcc = s.crcAcc := rfl
@[simp] theorem endOp_role (s : State) : (endOp s).role = s.role := rfl
@[simp] theorem endOp_portOpen (s : State) : (endOp s).portOpen = s.portOpen := rfl
@[simp] theorem endOp_txIter (s : State) : (endOp s).txIter = s.txIter := rfl
@[simp] theorem endOp_txMsg (s : State) : (endOp s).txMsg = s.txMsg := rfl
@[simp] theorem endOp_txExp (s : State) : (endOp s).txExp = s.txExp := rfl
@[simp] theorem endOp_txRcv (s : State) : (endOp s).txRcv = s.txRcv := rfl
@[simp] theorem endOp_txWaitCnt (s : State) : (endOp s).txWaitCnt = s.txWaitCnt := rfl
@[simp] theorem endOp_snap (s : State) : (endOp s).snap = s.snap := rfl
@[simp] theorem endOp_pollCnt (s : State) : (endOp s).pollCnt = s.pollCnt := rfl
@[simp] theorem endOp_idleCnt (s : State) : (endOp s).idleCnt = s.idleCnt := rfl
@[simp] theorem endOp_cfg (s : State) : (endOp s).cfg = s.cfg := rfl
@[simp] theorem endOp_oracle (s : State) : (endOp s).oracle = [] := rfl
@[simp] theorem endOp_events (s : State) : (endOp s).events = s.events := rfl
@[simp] theorem endOp_inputs (s : State) : (endOp s).inputs = s.inputs := rfl

/-! ### append -/

@[simp] theorem append_frag (l : Bytes) (s : State) : (append l s).frag = s.frag := rfl
@[simp] theorem append_rxst (l : Bytes) (s : State) : (append l s).rxst = s.rxst := rfl
@[simp] theorem append_fbuf (l : Bytes) (s : State) : (append l s).fbuf = s.fbuf ++ [l] := rfl
@[simp] theorem append_crcAcc (l : Bytes) (s : State) : (append l s).crcAcc = crcUpdate s.crcAcc l := rfl
@[simp] theorem append_role (l : Bytes) (s : State) : (append l s).role = s.role := rfl
@[simp] theorem append_portOpen (l : Bytes) (s : State) : (append l s).portOpen = s.portOpen := rfl
@[simp] theorem append_txIter (l : Bytes) (s : State) : (append l s).txIter = s.txIter := rfl
@[simp] theorem append_txMsg (l : Bytes) (s : State) : (append l s).txMsg = s.txMsg := rfl
@[simp] theorem append_txExp (l : Bytes) (s : State) : (append l s).txExp = s.txExp := rfl
@[simp] theorem append_txRcv (l : Bytes) (s : State) : (append l s).txRcv = s.txRcv := rfl
@[simp] theorem append_txWaitCnt (l : Bytes) (s : State) : (append l s).txWaitCnt = s.txWaitCnt := rfl
@[simp] theorem append_snap (l : Bytes) (s : State) : (append l s).snap = s.snap := rfl
@[simp] theorem append_pollCnt (l : Bytes) (s : State) : (append l s).pollCnt = s.pollCnt := rfl
@[simp] theorem append_idleCnt (l : Bytes) (s : State) : (append l s).idleCnt = s.idleCnt := rfl
@[simp] theorem append_cfg (l : Bytes) (s : State) : (append l s).cfg = s.cfg := rfl
@[simp] theorem append_oracle (l : Bytes) (s : State) : (append l s).oracle = s.oracle := rfl
@[simp] theorem append_events (l : Bytes) (s : State) : (append l s).events = s.events := rfl
@[simp] theorem append_inputs (l : Bytes) (s : State) : (append l s).inputs = s.inputs := rfl

/-! ### receiverWrite -/

@[simp] theorem receiverWrite_frag (t : Bytes) (s : State) : (receiverWrite t s).frag = s.frag := rfl
@[simp] theorem receiverWrite_rxst (t : Bytes) (s : State) : (receiverWrite t s).rxst = s.rxst := rfl
@[simp] theorem receiverWrite_fbuf (t : Bytes) (s : State) : (receiverWrite t s).fbuf = s.fbuf := rfl
@[simp] theorem receiverWrite_crcAcc (t : Bytes) (s : State) : (receiverWrite t s).crcAcc = s.crcAcc := rfl
@[simp] theorem receiverWrite_role (t : Bytes) (s : State) : (receiverWrite t s).role = s.role := rfl
@[simp] theorem receiverWrite_portOpen (t : Bytes) (s : State) : (receiverWrite t s).portOpen = s.portOpen := rfl
@[simp] theorem receiverWrite_txIter (t : Bytes) (s : State) : (receiverWrite t s).txIter = s.txIter := rfl
@[simp] theorem receiverWrite_txMsg (t : Bytes) (s : State) : (receiverWrite t s).txMsg = s.txMsg := rfl
@[simp] theorem receiverWrite_txExp (t : Bytes) (s : State) : (receiverWrite t s).txExp = s.txExp := rfl
@[simp] theorem receiverWrite_txRcv (t : Bytes) (s : State) : (receiverWrite t s).txRcv = s.txRcv := rfl
@[simp] theorem receiverWrite_txWaitCnt (t : Bytes) (s : State) : (receiverWrite t s).txWaitCnt = s.txWaitCnt := rfl
@[simp] theorem receiverWrite_snap (t : Bytes) (s : State) : (receiverWrite t s).snap = s.snap := rfl
@[simp] theorem receiverWrite_pollCnt (t : Bytes) (s : State) : (receiverWrite t s).pollCnt = s.pollCnt := rfl
@[simp] theorem receiverWrite_idleCnt (t : Bytes) (s : State) : (receiverWrite t s).idleCnt = s.idleCnt := rfl
@[simp] theorem receiverWrite_cfg (t : Bytes) (s : State) : (receiverWrite t s).cfg = s.cfg := rfl
@[simp] theorem receiverWrite_oracle (t : Bytes) (s : State) : (receiverWrite t s).oracle = s.oracle := rfl
@[simp] theorem receiverWrite_events (t : Bytes) (s : State) : (receiverWrite t s).events = s.events ++ [.modeWrite, lineEvent s.cfg t, .modeRead] := rfl
@[simp] theorem receiverWrite_inputs (t : Bytes) (s : State) : (receiverWrite t s).inputs = s.inputs := rfl

/-! ### startAttempt -/

@[simp] theorem startAttempt_frag (s : State) : (startAttempt s).frag = [] := rfl
@[simp] theorem startAttempt_rxst (s : State) : (startAttempt s).rxst = s.rxst := rfl
@[simp] theorem startAttempt_fbuf (s : State) : (startAttempt s).fbuf = s.fbuf := rfl
@[simp] theorem startAttempt_crcAcc (s : State) : (startAttempt s).crcAcc = s.crcAcc := rfl
@[simp] theorem startAttempt_role (s : State) : (startAttempt s).role = .txWait := rfl
@[simp] theorem startAttempt_portOpen (s : State) : (startAttempt s).portOpen = s.portOpen := rfl
@[simp] theorem startAttempt_txIter (s : State) : (startAttempt s).txIter = s.txIter + 1 := rfl
@[simp] theorem startAttempt_txMsg (s : State) : (startAttempt s).txMsg = s.txMsg := rfl
@[simp] theorem startAttempt_txExp (s : State) : (startAttempt s).txExp = s.txExp := rfl
@[simp] theorem startAttempt_txRcv (s : State) : (startAttempt s).txRcv = .none := rfl
@[simp] theorem startAttempt_txWaitCnt (s : State) : (startAttempt s).txWaitCnt = 0 := rfl
@[simp] theorem startAttempt_snap (s : State) : (startAttempt s).snap = s.snap := rfl
@[simp] theorem startAttempt_pollCnt (s : State) : (startAttempt s).pollCnt = s.pollCnt := rfl
@[simp] theorem startAttempt_idleCnt (s : State) : (startAttempt s).idleCnt = s.idleCnt := rfl
@[simp] theorem startAttempt_cfg (s : State) : (startAttempt s).cfg = s.cfg := rfl
@[simp] theorem startAttempt_oracle (s : State) : (startAttempt s).oracle = s.oracle := rfl
@[simp] theorem startAttempt_events (s : State) : (startAttempt s).events = s.events ++ attemptEvents s.cfg s.txMsg := rfl
@[simp] theorem startAttempt_inputs (s : State) : (startAttempt s).inputs = s.inputs := rfl

/-! ### idleStep -/

@[simp] theorem idleStep_frag (s : State) : (idleStep s).frag = s.frag := rfl
@[simp] theorem idleStep_rxst (s : State) : (idleStep s).rxst = s.rxst := rfl
@[simp] theorem idleStep_fbuf (s : State) : (idleStep s).fbuf = s.fbuf := rfl
@[simp] theorem idleStep_crcAcc (s : State) : (idleStep s).crcAcc = s.crcAcc := rfl
@[simp] theorem idleStep_role (s : State) : (idleStep s).role = s.role := rfl
@[simp] theorem idleStep_portOpen (s : State) : (idleStep s).portOpen = s.portOpen := rfl
@[simp] theorem idleStep_txIter (s : State) : (idleStep s).txIter = s.txIter := rfl
@[simp] theorem idleStep_txMsg (s : State) : (idleStep s).txMsg = s.txMsg := rfl
@[simp] theorem idleStep_txExp (s : State) : (idleStep s).txExp = s.txExp := rfl
@[simp] theorem idleStep_txRcv (s : State) : (idleStep s).txRcv = s.txRcv := rfl
@[simp] theorem idleStep_txWaitCnt (s : State) : (idleStep s).txWaitCnt = s.txWaitCnt := rfl
@[simp] theorem idleStep_snap (s : State) : (idleStep s).snap = s.snap := rfl
@[simp] theorem idleStep_pollCnt (s : State) : (idleStep s).pollCnt = s.pollCnt := rfl
@[simp] theorem idleStep_idleCnt (s : State) : (idleStep s).idleCnt = s.idleCnt := rfl
@[simp] theorem idleStep_cfg (s : State) : (idleStep s).cfg = s.cfg := rfl
@[simp] theorem idleStep_oracle (s : State) : (idleStep s).oracle = s.oracle := rfl
@[simp] theorem idleStep_events (s : State) : (idleStep s).events = [] := rfl
@[simp] theorem idleStep_inputs (s : State) : (idleStep s).inputs = s.inputs := rfl

/-! ### setRxst -/

@[simp] theorem setRxst_rxst (r : RxState) (s : State) : (setRxst r s).rxst = r := by
  unfold setRxst; split <;> simp_all

@[simp] theorem setRxst_idleCnt (r : RxState) (s : State) :
    (setRxst r s).idleCnt = if s.rxst = r then s.idleCnt else 0 := by
  unfold setRxst; split <;> rfl

@[simp] theorem setRxst_frag (r : RxState) (s : State) : (setRxst r s).frag = s.frag := by
  unfold setRxst; split <;> rfl
@[simp] theorem setRxst_fbuf (r : RxState) (s : State) : (setRxst r s).fbuf = s.fbuf := by
  unfold setRxst; split <;> rfl
@[simp] theorem setRxst_crcAcc (r : RxState) (s : State) : (setRxst r s).crcAcc = s.crcAcc := by
  unfold setRxst; split <;> rfl
@[simp] theorem setRxst_role (r : RxState) (s : State) : (setRxst r s).role = s.role := by
  unfold setRxst; split <;> rfl
@[simp] theorem setRxst_portOpen (r : RxState) (s : State) : (setRxst r s).portOpen = s.portOpen := by
  unfold setRxst; split <;> rfl
@[simp] theorem setRxst_txIter (r : RxState) (s : State) : (setRxst r s).txIter = s.txIter := by
  unfold setRxst; split <;> rfl
@[simp] theorem setRxst_txMsg (r : RxState) (s : State) : (setRxst r s).txMsg = s.txMsg := by
  unfold setRxst; split <;> rfl
@[simp] theorem setRxst_txExp (r : RxState) (s : State) : (setRxst r s).txExp = s.txExp := by
  unfold setRxst; split <;> rfl
@[simp] theorem setRxst_txRcv (r : RxState) (s : State) : (setRxst r s).txRcv = s.txRcv := by
  unfold setRxst; split <;> rfl
@[simp] theorem setRxst_txWaitCnt (r : RxState) (s : State) : (setRxst r s).txWaitCnt = s.txWaitCnt := by
  unfold setRxst; split <;> rfl
@[simp] theorem setRxst_snap (r : RxState) (s : State) : (setRxst r s).snap = s.snap := by
  unfold setRxst; split <;> rfl
@[simp] theorem setRxst_pollCnt (r : RxState) (s : State) : (setRxst r s).pollCnt = s.pollCnt := by
  unfold setRxst; split <;> rfl
@[simp] theorem setRxst_cfg (r : RxState) (s : State) : (setRxst r s).cfg = s.cfg := by
  unfold setRxst; split <;> rfl
@[simp] theorem setRxst_oracle (r : RxState) (s : State) : (setRxst r s).oracle = s.oracle := by
  unfold setRxst; split <;> rfl
@[simp] theorem setRxst_events (r : RxState) (s : State) : (setRxst r s).events = s.events := by
  unfold setRxst; split <;> rfl
@[simp] theorem setRxst_inputs (r : RxState) (s : State) : (setRxst r s).inputs = s.inputs := by
  unfold setRxst; split <;> rfl

/-- A write that changes `RXST` clears the idle counter (R232). -/
theorem setRxst_of_ne (r : RxState) (s : State) (h : s.rxst ≠ r) :
    setRxst r s = { s with rxst := r, idleCnt := 0 } := if_neg h

/-- A write of the value that stands there changes nothing (R232). -/
theorem setRxst_of_eq (r : RxState) (s : State) (h : s.rxst = r) : setRxst r s = s := if_pos h

end Sys2Proof.Machine
end

