-- ==== Sys2Proof/Laws/Ops.lean ====
section
/-! SUPPORT. One lemma per shared operation that says everything it can do: the open loop, the reconnect, the sender's
attempts, the monitor's tick, the receiver's lines. Callers cite these rather than unfold the operation. -/

namespace Sys2Proof.Machine

/-! ### Opening the port -/

/-- The state after an open loop that made `n` opens, ended with the port open or not, and left `rest` of the oracle
(R234). -/
def afterOpen (n : Nat) (ok : Bool) (rest : List OpenOutcome) (s : State) : State :=
  { s with
    portOpen := ok, frag := (if ok then [] else s.frag), snap := (if ok then 0 else s.snap),
    idleCnt := (if ok then 0 else s.idleCnt), oracle := rest,
    events := s.events ++ (List.replicate n (openEvent s.cfg) ++ if ok then [.purge, .modeRead] else []) }

/-- What the open loop can do, whatever the oracle (R234). -/
theorem openLoop_cases (k : Nat) (s : State) :
    ∃ n ok rest, n ≤ k ∧ (ok = true → 1 ≤ n) ∧ openLoop k s = afterOpen n ok rest s := by
  induction k generalizing s with
  | zero => exact ⟨0, false, s.oracle, Nat.le_refl _, by simp, by simp [openLoop, afterOpen]⟩
  | succ k ih =>
    cases ho : s.oracle with
    | nil =>
      exact ⟨1, true, [], by omega, by simp, by simp [openLoop, drawOpen, afterOpen, emit, emits, opened, ho]⟩
    | cons o rest =>
      cases o with
      | ok =>
        exact ⟨1, true, rest, by omega, by simp, by simp [openLoop, drawOpen, afterOpen, emit, emits, opened, ho]⟩
      | busy =>
        exact ⟨1, false, rest, by omega, by simp, by simp [openLoop, drawOpen, afterOpen, emit, emits, ho]⟩
      | fail =>
        obtain ⟨n, ok, rest', hn, hk, he⟩ := ih { emit (openEvent s.cfg) s with oracle := rest }
        refine ⟨n + 1, ok, rest', by omega, by simp, ?_⟩
        have : openLoop (k + 1) s = openLoop k { emit (openEvent s.cfg) s with oracle := rest } := by
          simp [openLoop, drawOpen, ho]
        rw [this, he]
        simp [afterOpen, List.replicate_succ]

/-- What opening the port can do (R234). -/
theorem openPort_cases (s : State) :
    ∃ n ok rest, n ≤ s.cfg.openMaxTries ∧ (ok = true → 1 ≤ n) ∧ openPort s = afterOpen n ok rest s :=
  openLoop_cases _ s

/-! ### The reconnect -/

/-- What the reconnect does before it reopens the port (R240). -/
def beforeReopen (s : State) : State :=
  let s := if s.role = .txWait then senderAbort s else s
  clearFrame { emits [.purge, .close] s with frag := [], portOpen := false, rxst := .idle, idleCnt := 0 }

/-- What a reconnect can do (R240). -/
theorem reconnect_cases (s : State) :
    ∃ n ok rest, n ≤ s.cfg.openMaxTries ∧ (ok = true → 1 ≤ n) ∧
      reconnect s = afterOpen n ok rest (beforeReopen s) := by
  have h : (beforeReopen s).cfg = s.cfg := by unfold beforeReopen; split <;> rfl
  have := openPort_cases (beforeReopen s)
  rw [h] at this
  exact this

/-- The registers a reconnect leaves, whatever the reopen does (R240). -/
theorem beforeReopen_eq (s : State) : beforeReopen s =
    { s with
      frag := [], portOpen := false, rxst := .idle, fbuf := [], crcAcc := crcInit, idleCnt := 0, role := .rx,
      txIter := (if s.role = .txWait then 0 else s.txIter), txMsg := (if s.role = .txWait then [] else s.txMsg),
      txExp := (if s.role = .txWait then 0#32 else s.txExp),
      txRcv := (if s.role = .txWait then .none else s.txRcv),
      txWaitCnt := (if s.role = .txWait then 0 else s.txWaitCnt),
      events := s.events ++ ((if s.role = .txWait then [.sendDone false] else []) ++ [.purge, .close]) } := by
  unfold beforeReopen
  cases hr : s.role <;> simp [hr, senderAbort, clearFrame, emits, emit, clearSession]

/-! ### The sender -/

/-- The state after `finish(ok)` (R199). -/
theorem finish_eq (ok : Bool) (s : State) : finish ok s =
    { s with
      txIter := 0, txMsg := [], txExp := 0#32, txRcv := .none, txWaitCnt := 0, role := .rx, idleCnt := 0,
      events := s.events ++ (burstEvents s.cfg ++ [.sendDone ok]) } := by
  simp [finish, emit, emits, clearSession]

/-- The two ways an attempt can fail (R198). -/
theorem attemptFailed_cases (s : State) :
    (s.txIter < s.cfg.maxAttempts ∧ attemptFailed s = startAttempt s) ∨
    (s.cfg.maxAttempts ≤ s.txIter ∧ attemptFailed s = finish false s) := by
  unfold attemptFailed
  split
  · exact .inl ⟨‹_›, rfl⟩
  · exact .inr ⟨by omega, rfl⟩

/-- The ways an evaluation can end (R196). -/
theorem senderEvaluate_cases (s : State) :
    (s.txRcv = .none ∧ senderEvaluate s = s) ∨
    (s.txRcv = .value s.txExp ∧ senderEvaluate s = finish true s) ∨
    ((s.txRcv ≠ .none ∧ s.txRcv ≠ .value s.txExp) ∧ senderEvaluate s = attemptFailed s) := by
  unfold senderEvaluate
  cases hr : s.txRcv with
  | none => simp
  | malformed => simp
  | value c =>
    by_cases h : c = s.txExp
    · simp [h]
    · simp [h]

/-- The two ways the deadline half of a tick can go (R197). -/
theorem senderTick_cases (s : State) :
    (s.txWaitCnt + 1 ≠ s.cfg.ackTicks ∧ senderTick s = { s with txWaitCnt := s.txWaitCnt + 1 }) ∨
    (s.txWaitCnt + 1 = s.cfg.ackTicks ∧
      senderTick s = attemptFailed { s with txWaitCnt := s.txWaitCnt + 1 }) := by
  by_cases h : s.txWaitCnt + 1 = s.cfg.ackTicks <;> simp [senderTick, h]

/-! ### The monitor -/

/-- The idle counter is the only register `countIdle` writes (R232). -/
theorem countIdle_eq (s : State) : countIdle s =
    { s with
      idleCnt := if s.portOpen = true ∧ s.role = .rx ∧ s.rxst = .idle then min (s.idleCnt + 1) s.cfg.idleTicks
        else s.idleCnt } := by
  unfold countIdle; split <;> rfl

/-- The ways a poll can go (R233). -/
theorem poll_cases (v : Levels) (s : State) :
    (s.portOpen = false ∧ poll v s = openPort s) ∨
    (s.portOpen = true ∧ poll v s = reconnect { s with snap := v }) ∨
    (s.portOpen = true ∧ fallingEdge s.snap v = false ∧ poll v s = { s with snap := v }) := by
  unfold poll
  cases hp : s.portOpen with
  | false => simp
  | true =>
    cases he : fallingEdge s.snap v with
    | true => simp
    | false => simp only [if_true, if_false, Bool.false_eq_true]; split <;> simp

/-- The two ways a tick of the monitor can go (R231). -/
theorem monitorTick_cases (v : Levels) (s : State) :
    (s.pollCnt ≠ 0 ∧ monitorTick v s = { countIdle s with pollCnt := s.pollCnt - 1 }) ∨
    (s.pollCnt = 0 ∧ monitorTick v s = poll v { countIdle s with pollCnt := s.cfg.pollTicks - 1 }) := by
  have hp : (countIdle s).pollCnt = s.pollCnt := by rw [countIdle_eq]
  have hc : (countIdle s).cfg = s.cfg := by rw [countIdle_eq]
  unfold monitorTick
  by_cases h : s.pollCnt = 0 <;> simp [hp, hc, h]

/-- Everything a tick of the monitor can do (R231, R233): count, open a closed port, reconnect an open one, or take the
new levels. `p` and `i` are the new counters, within their bounds. -/
theorem monitorTick_all (v : Levels) (s : State) :
    ∃ p i, (s.pollCnt < s.cfg.pollTicks → p < s.cfg.pollTicks) ∧ (s.idleCnt ≤ s.cfg.idleTicks → i ≤ s.cfg.idleTicks) ∧
      (monitorTick v s = { s with pollCnt := p, idleCnt := i } ∨
        (s.portOpen = false ∧ ∃ n ok rest, (ok = true → 1 ≤ n) ∧
          monitorTick v s = afterOpen n ok rest { s with pollCnt := p, idleCnt := i }) ∨
        (s.portOpen = true ∧ ∃ n ok rest, (ok = true → 1 ≤ n) ∧
          monitorTick v s = afterOpen n ok rest (beforeReopen { s with pollCnt := p, idleCnt := i, snap := v })) ∨
        (s.portOpen = true ∧ monitorTick v s = { s with pollCnt := p, idleCnt := i, snap := v })) := by
  have hi : (countIdle s).idleCnt ≤ s.cfg.idleTicks ∨ ¬ s.idleCnt ≤ s.cfg.idleTicks := by
    rw [countIdle_eq]; simp only; split <;> omega
  have hp : (countIdle s).portOpen = s.portOpen := by rw [countIdle_eq]
  have hc : { countIdle s with idleCnt := (countIdle s).idleCnt } = { s with idleCnt := (countIdle s).idleCnt } := by
    conv => lhs; rw [countIdle_eq]
    simp [countIdle_eq]
  have hc : countIdle s = { s with idleCnt := (countIdle s).idleCnt } := hc
  generalize (countIdle s).idleCnt = i at hc hi
  rcases monitorTick_cases v s with ⟨_, e⟩ | ⟨_, e⟩
  · refine ⟨s.pollCnt - 1, i, by omega, by omega, .inl ?_⟩
    rw [e, hc]
  · refine ⟨s.cfg.pollTicks - 1, i, by omega, by omega, ?_⟩
    rw [e, hc]
    rcases poll_cases v { s with idleCnt := i, pollCnt := s.cfg.pollTicks - 1 } with ⟨h, e⟩ | ⟨h, e⟩ | ⟨h, -, e⟩
    · obtain ⟨n, ok, rest, -, hn, e'⟩ := openPort_cases { s with idleCnt := i, pollCnt := s.cfg.pollTicks - 1 }
      exact .inr (.inl ⟨h, n, ok, rest, hn, e.trans e'⟩)
    · obtain ⟨n, ok, rest, -, hn, e'⟩ :=
        reconnect_cases { s with idleCnt := i, pollCnt := s.cfg.pollTicks - 1, snap := v }
      exact .inr (.inr (.inl ⟨h, n, ok, rest, hn, e.trans e'⟩))
    · exact .inr (.inr (.inr ⟨h, e⟩))

/-! ### The receiver and the detector -/

/-- What one line can do, whatever its class: nothing; a frame begun; a line appended; an acknowledgement; a capability
line; a delivery; an abort; a received checksum (R150, R195). `leaveProcessing s` is `s` but in PROCESSING. -/
inductive LineStep (s : State) : State → Prop where
  | ignored : LineStep s s
  | begun : s.role = .rx → s.rxst = .idle → LineStep s (setRxst .receiving (clearFrame s))
  | appended (l : Bytes) : s.role = .rx → s.rxst = .receiving → LineStep s (append l s)
  | acknowledged : s.role = .rx → s.rxst = .receiving → LineStep s (processing (setRxst .processing s))
  | announced : s.role = .rx → s.rxst = .idle → LineStep s (receiverWrite s.cfg.capLine s)
  | delivered : s.role = .rx → s.rxst = .waiting → LineStep s (endFrame (emit (.deliver s.fbuf) s))
  | aborted : s.role = .rx → s.rxst = .waiting → LineStep s (endFrame s)
  | received (v : Bytes) : s.role = .txWait → LineStep s (ackDetect v s)

/-- A receiver not in PROCESSING has nothing to leave. -/
theorem leaveProcessing_of_ne {s : State} (h : s.rxst ≠ .processing) : leaveProcessing s = s := if_neg h

/-- Every class of line takes one of the steps above, outside PROCESSING. The appended line is the one that was
routed. -/
theorem route_cases (l : Bytes) {s : State} (h : s.rxst ≠ .processing) :
    LineStep s (route l s) ∧ (s.role = .rx → s.rxst = .receiving → route l s = append l s ∨
      route l s = processing (setRxst .processing s)) := by
  have hl := leaveProcessing_of_ne h
  have hc : ∀ i, classify s.cfg l = i → i = .lineStx l ∨ i = .lineEtx l ∨ i = .lineEnq l ∨ i = .lineAck l ∨
      (∃ v, i = .lineAckv l v) ∨ i = .lineOther l := by
    intro i hi
    subst hi
    unfold classify
    simp only
    repeat' split
    all_goals simp
  rcases hr : s.role with _ | _
  · rcases hc _ rfl with h1 | h1 | h1 | h1 | ⟨v, h1⟩ | h1 <;> cases hx : s.rxst <;>
      simp_all [route, routeStx, routeEtx, routeEnq, routeAck, routeAckv, routeOther, receiveStx, receiveEtx,
        receiveEnq, receiveAck, receiveOther]
    all_goals first
      | exact .ignored
      | exact .begun hr hx
      | exact .appended l hr hx
      | exact .acknowledged hr hx
      | exact .announced hr hx
      | exact .delivered hr hx
      | exact .aborted hr hx
  · rcases hc _ rfl with h1 | h1 | h1 | h1 | ⟨v, h1⟩ | h1 <;>
      simp_all [route, routeStx, routeEtx, routeEnq, routeAck, routeAckv, routeOther]
    all_goals first
      | exact .ignored
      | exact .received v hr

/-- The transient state ends in WAITING with the acknowledgement written (R153, R158). -/
theorem acknowledge_eq {s : State} (h : s.rxst = .receiving) :
    processing (setRxst .processing s) =
      { s with
        rxst := .waiting, idleCnt := 0,
        events := s.events ++ [.modeWrite, lineEvent s.cfg (ackLine s.cfg (s.crcAcc ^^^ crcInit)), .modeRead] } := by
  simp [processing, setRxst, receiverWrite, emits, h]

/-- A frame ends in IDLE with an empty buffer (R153, R155). -/
theorem endFrame_eq {s : State} (h : s.rxst ≠ .idle) :
    endFrame s = { s with fbuf := [], crcAcc := crcInit, rxst := .idle, idleCnt := 0 } := by
  simp [endFrame, setRxst, clearFrame, h]

end Sys2Proof.Machine
end

