-- ==== Sys2Proof/Laws/PerInstr.lean ====
section
/-! SUPPORT. The per-instruction family `Encoding`: the transaction the encoder gives an instruction fits the mask and
match columns of that instruction's row of spec/opcode_table.json, constructor by constructor. -/

namespace Sys2Proof.Laws.Encoding

/-- A command with this byte and nothing attached, or with this attached string. -/
def fixedRow (byte : Byte) (operand : Bytes) (t : Transaction) : Prop := t = .command byte operand

/-- A command whose byte has the row's bits under the row's mask; nothing is attached. -/
def maskedRow (mask bits : Byte) (t : Transaction) : Prop := ∃ b, t = .command b [] ∧ b &&& mask = bits

/-- A line whose trimmed bytes are the token (R71). -/
def tokenRow (tok : Bytes) (t : Transaction) : Prop := ∃ l, t = .line l ∧ isLine l = true ∧ trim l = tok

/-- The row of the opcode table, for the tokens of a configuration. -/
def Row (c : Config) : Instr → Transaction → Prop
  | .reset => fixedRow 0x00 []
  | .rxChunk data => fixedRow 0x10 data
  | .tick _ => maskedRow 0xF0 0x20
  | .signalBreak _ => maskedRow 0xFE 0x30
  | .signalClearToSend _ => maskedRow 0xFE 0x32
  | .signalDataSetReady _ => maskedRow 0xFE 0x34
  | .signalError _ => maskedRow 0xFE 0x36
  | .signalRing _ => maskedRow 0xFE 0x38
  | .signalRlsd _ => maskedRow 0xFE 0x3A
  | .send message => fixedRow 0x40 message
  | .cancel => fixedRow 0x50 []
  | .iofault => fixedRow 0x60 []
  | .reservedSignalKind _ => maskedRow 0xFC 0x3C
  | .reservedImm _ _ => fun t => ∃ b : Byte, t = .command b [] ∧ [0, 1, 4, 5, 6].contains (b.toNat / 16) = true ∧
      b &&& 0x0F ≠ 0
  | .reservedOp _ _ => fun t => ∃ b : Byte, t = .command b [] ∧ 0x70 ≤ b.toNat
  | .lineStx _ => tokenRow c.tokStx
  | .lineEtx _ => tokenRow c.tokEtx
  | .lineEnq _ => tokenRow c.tokEnq
  | .lineAck _ => tokenRow c.tokAck
  | .lineAckv _ v => tokenRow (c.tokAck ++ [0x3A] ++ v)
  | .lineOther l => fun t => t = .line l ∧ isLine l = true ∧
      ¬ (tokenRow c.tokStx t ∨ tokenRow c.tokEtx t ∨ tokenRow c.tokEnq t ∨ tokenRow c.tokAck t)

/-- A well-formed instruction's transaction fits its row, under every configuration. -/
def Statement (i : Instr) : Prop := ∀ c : Config, WellFormed c i = true → Row c i (encode i)

theorem reset : Statement .reset := fun _ _ => rfl

theorem rxChunk (data : Bytes) : Statement (.rxChunk data) := fun _ _ => rfl

theorem tick (levels : Levels) : Statement (.tick levels) :=
  have h : ∀ v : Levels, commandByte 2 v &&& 0xF0 = 0x20 := by decide
  fun _ _ => ⟨_, rfl, h levels⟩

theorem signalBreak (asserted : Bool) : Statement (.signalBreak asserted) :=
  have h : ∀ a, signalByte .breakSignal a &&& 0xFE = 0x30 := by decide
  fun _ _ => ⟨_, rfl, h asserted⟩

theorem signalClearToSend (asserted : Bool) : Statement (.signalClearToSend asserted) :=
  have h : ∀ a, signalByte .clearToSend a &&& 0xFE = 0x32 := by decide
  fun _ _ => ⟨_, rfl, h asserted⟩

theorem signalDataSetReady (asserted : Bool) : Statement (.signalDataSetReady asserted) :=
  have h : ∀ a, signalByte .dataSetReady a &&& 0xFE = 0x34 := by decide
  fun _ _ => ⟨_, rfl, h asserted⟩

theorem signalError (asserted : Bool) : Statement (.signalError asserted) :=
  have h : ∀ a, signalByte .error a &&& 0xFE = 0x36 := by decide
  fun _ _ => ⟨_, rfl, h asserted⟩

theorem signalRing (asserted : Bool) : Statement (.signalRing asserted) :=
  have h : ∀ a, signalByte .ring a &&& 0xFE = 0x38 := by decide
  fun _ _ => ⟨_, rfl, h asserted⟩

theorem signalRlsd (asserted : Bool) : Statement (.signalRlsd asserted) :=
  have h : ∀ a, signalByte .rlsd a &&& 0xFE = 0x3A := by decide
  fun _ _ => ⟨_, rfl, h asserted⟩

theorem send (message : Bytes) : Statement (.send message) := fun _ _ => rfl

theorem cancel : Statement .cancel := fun _ _ => rfl

theorem iofault : Statement .iofault := fun _ _ => rfl

theorem reservedSignalKind (low : BitVec 2) : Statement (.reservedSignalKind low) :=
  have h : ∀ v : BitVec 2, commandByte 3 (3#2 ++ v) &&& 0xFC = 0x3C := by decide
  fun _ _ => ⟨_, rfl, h low⟩

theorem reservedImm (op imm : BitVec 4) : Statement (.reservedImm op imm) := by
  have h : ∀ op imm : BitVec 4, ([0, 1, 4, 5, 6].contains op.toNat && imm != 0#4) = true →
      [0, 1, 4, 5, 6].contains ((commandByte op imm).toNat / 16) = true ∧ commandByte op imm &&& 0x0F ≠ 0 := by decide
  exact fun _ hw => ⟨_, rfl, h op imm hw⟩

theorem reservedOp (op imm : BitVec 4) : Statement (.reservedOp op imm) := by
  have h : ∀ op imm : BitVec 4, decide (7 ≤ op.toNat) = true → 0x70 ≤ (commandByte op imm).toNat := by decide
  exact fun _ hw => ⟨_, rfl, h op imm hw⟩

/-- The class tests of the four token rows. -/
theorem tokenRow_of_trimsTo {tok l : Bytes} (h : trimsTo tok l = true) : tokenRow tok (.line l) := by
  simp only [trimsTo, Bool.and_eq_true, beq_iff_eq] at h
  exact ⟨l, rfl, h⟩

theorem lineStx (l : Bytes) : Statement (.lineStx l) := fun _ h => tokenRow_of_trimsTo h

theorem lineEtx (l : Bytes) : Statement (.lineEtx l) := fun _ h => tokenRow_of_trimsTo h

theorem lineEnq (l : Bytes) : Statement (.lineEnq l) := fun _ h => tokenRow_of_trimsTo h

theorem lineAck (l : Bytes) : Statement (.lineAck l) := fun _ h => tokenRow_of_trimsTo h

theorem lineAckv (l v : Bytes) : Statement (.lineAckv l v) := by
  intro c h
  simp only [WellFormed, ackPrefix, Bool.and_eq_true, beq_iff_eq] at h
  exact ⟨l, rfl, h⟩

theorem lineOther (l : Bytes) : Statement (.lineOther l) := by
  intro c h
  simp only [WellFormed, Bool.and_eq_true, List.all_cons, List.all_nil, bne_iff_ne] at h
  obtain ⟨⟨hl, h1, h2, h3, h4, -⟩, -⟩ := h
  refine ⟨rfl, hl, ?_⟩
  have key : ∀ tok, tokenRow tok (encode (.lineOther l)) → trim l = tok := by
    rintro tok ⟨l', e, -, ht⟩
    cases e
    exact ht
  rintro (h | h | h | h)
  · exact h1 (key _ h)
  · exact h2 (key _ h)
  · exact h3 (key _ h)
  · exact h4 (key _ h)

end Sys2Proof.Laws.Encoding
end

