-- ==== Sys2Proof/Laws/Step.lean ====
section
/-! SUPPORT. What a step can do, said once (R100): the inversion lemma `step_cases` and the effects it names. Statements
about every step are proved by a case analysis over `StepEffect`, citing the lemmas of Laws/Ops.lean. -/

namespace Sys2Proof.Machine

/-! ### Lines -/

/-- The classifier answers one of the six LINE rows, with the line it was given. -/
theorem classify_cases (c : Config) (l : Bytes) :
    classify c l = .lineStx l ∨ classify c l = .lineEtx l ∨ classify c l = .lineEnq l ∨ classify c l = .lineAck l ∨
      (∃ v, classify c l = .lineAckv l v) ∨ classify c l = .lineOther l := by
  unfold classify
  simp only
  repeat' split
  all_goals simp

/-- The meaning of a line's class is `route`. -/
theorem exec_classify (l : Bytes) (s : State) : exec (classify s.cfg l) s = .next (route l s) := by
  rcases classify_cases s.cfg l with h | h | h | h | ⟨v, h⟩ | h <;> unfold route <;> rw [h] <;> rfl

/-- What no routed line writes, in any receiver state (R62, R108). -/
theorem route_frame (l : Bytes) (s : State) :
    (route l s).cfg = s.cfg ∧ (route l s).role = s.role ∧ (route l s).inputs = s.inputs ∧
      (route l s).portOpen = s.portOpen ∧ (route l s).frag = s.frag := by
  have hl : (leaveProcessing s).cfg = s.cfg ∧ (leaveProcessing s).role = s.role ∧
      (leaveProcessing s).inputs = s.inputs ∧ (leaveProcessing s).portOpen = s.portOpen ∧
      (leaveProcessing s).frag = s.frag := by
    unfold leaveProcessing
    split
    · unfold processing setRxst; split <;> exact ⟨rfl, rfl, rfl, rfl, rfl⟩
    · exact ⟨rfl, rfl, rfl, rfl, rfl⟩
  unfold route
  split <;> simp only [routeStx, routeEtx, routeEnq, routeAck, routeAckv, routeOther] <;> split <;>
    (try exact ⟨rfl, rfl, rfl, rfl, rfl⟩)
  all_goals simp only [receiveStx, receiveEtx, receiveEnq, receiveAck, receiveOther]
  all_goals split <;> first
    | exact hl
    | (simp [receiverWrite, endFrame, processing, setRxst]; (repeat' split) <;> simp_all)

/-- What the lines of a chunk do not write. -/
theorem routeAll_frame (ls : List Bytes) (s : State) :
    (routeAll ls s).cfg = s.cfg ∧ (routeAll ls s).role = s.role ∧ (routeAll ls s).inputs = s.inputs ∧
      (routeAll ls s).portOpen = s.portOpen ∧ (routeAll ls s).frag = s.frag := by
  induction ls generalizing s with
  | nil => exact ⟨rfl, rfl, rfl, rfl, rfl⟩
  | cons l ls ih =>
    obtain ⟨a, b, c, d, e⟩ := ih (route l s)
    obtain ⟨a', b', c', d', e'⟩ := route_frame l s
    exact ⟨a.trans a', b.trans b', c.trans c', d.trans d', e.trans e'⟩

@[simp] theorem routeAll_nil (s : State) : routeAll [] s = s := rfl

theorem routeAll_cons (l : Bytes) (ls : List Bytes) (s : State) : routeAll (l :: ls) s = routeAll ls (route l s) := rfl

theorem routeAll_append (as bs : List Bytes) (s : State) : routeAll (as ++ bs) s = routeAll bs (routeAll as s) := by
  simp [routeAll]

/-! ### Steps -/

/-- What the instruction of a transaction can do to the state it starts in. -/
inductive StepEffect (s : State) : Transaction → State → Prop where
  | reset {b : Byte} {o : Bytes} : decodeCommand b o = .reset → StepEffect s (.command b o) (resetRegisters s)
  | chunk {b : Byte} {o data : Bytes} : decodeCommand b o = .rxChunk data → s.portOpen = true →
      StepEffect s (.command b o)
        (endDelivery (routeAll (split s.frag data).1 { s with frag := (split s.frag data).2 }))
  | chunkDropped {b : Byte} {o data : Bytes} : decodeCommand b o = .rxChunk data → s.portOpen = false →
      StepEffect s (.command b o) s
  | tick {b : Byte} {o : Bytes} {v : Levels} : decodeCommand b o = .tick v →
      StepEffect s (.command b o) (monitorTick v (if s.role = .txWait then senderTick s else s))
  | relayed {b : Byte} {o : Bytes} {i : Instr} (k : SignalKind) (a : Bool) : decodeCommand b o = i →
      i = .signalBreak a ∨ i = .signalClearToSend a ∨ i = .signalDataSetReady a ∨ i = .signalError a ∨
        i = .signalRing a ∨ i = .signalRlsd a →
      StepEffect s (.command b o) (emit (.notify k a) s)
  | notRelayed {b : Byte} {o : Bytes} {i : Instr} (a : Bool) : decodeCommand b o = i →
      i = .signalBreak a ∨ i = .signalClearToSend a ∨ i = .signalDataSetReady a ∨ i = .signalError a ∨
        i = .signalRing a ∨ i = .signalRlsd a →
      StepEffect s (.command b o) s
  | sent {b : Byte} {o m : Bytes} : decodeCommand b o = .send m → s.role = .rx →
      StepEffect s (.command b o) (senderStart m s)
  | cancel {b : Byte} {o : Bytes} : decodeCommand b o = .cancel → StepEffect s (.command b o) (senderCancel s)
  | iofault {b : Byte} {o : Bytes} : decodeCommand b o = .iofault →
      StepEffect s (.command b o) (if s.portOpen then reconnect s else s)
  | line {l : Bytes} : isLine l = true → s.portOpen = true → StepEffect s (.line l) (endDelivery (route l s))
  | lineDropped {l : Bytes} : isLine l = true → s.portOpen = false → StepEffect s (.line l) s

/-- A signal is relayed or not (R112, R271). -/
theorem signal_cases (k : SignalKind) (a : Bool) (s : State) :
    signal k a s = s ∨ signal k a s = emit (.notify k a) s := by
  unfold signal notify
  cases k <;> split <;> simp

/-- A command byte never decodes to a line. -/
theorem decodeCommand_cases (b : Byte) (o : Bytes) :
    decodeCommand b o = .reset ∨ decodeCommand b o = .rxChunk o ∨ (∃ v, decodeCommand b o = .tick v) ∨
      (∃ a, decodeCommand b o = .signalBreak a ∨ decodeCommand b o = .signalClearToSend a ∨
        decodeCommand b o = .signalDataSetReady a ∨ decodeCommand b o = .signalError a ∨
        decodeCommand b o = .signalRing a ∨ decodeCommand b o = .signalRlsd a) ∨
      decodeCommand b o = .send o ∨ decodeCommand b o = .cancel ∨ decodeCommand b o = .iofault ∨
      (∃ low, decodeCommand b o = .reservedSignalKind low) ∨ (∃ op imm, decodeCommand b o = .reservedImm op imm) ∨
      (∃ op imm, decodeCommand b o = .reservedOp op imm) := by
  unfold decodeCommand
  simp only [withoutImm, decodeSignal]
  repeat' split
  all_goals simp

/-- What one accepted instruction of a command can do. -/
theorem exec_command_cases {b : Byte} {o : Bytes} {s u : State} (h : exec (decodeCommand b o) s = .next u) :
    StepEffect s (.command b o) u := by
  rcases decodeCommand_cases b o with hd | hd | ⟨v, hd⟩ | ⟨a, hd⟩ | hd | hd | hd | ⟨low, hd⟩ | ⟨op, imm, hd⟩ |
      ⟨op, imm, hd⟩
  · rw [hd] at h; cases h; exact .reset hd
  · rw [hd] at h; cases h
    by_cases hp : s.portOpen = true
    · rw [if_pos hp]; exact .chunk hd hp
    · rw [if_neg hp]; exact .chunkDropped hd (by simpa using hp)
  · rw [hd] at h; cases h; exact .tick hd
  · have hs : ∃ k, u = signal k a s := by
      rcases hd with hd | hd | hd | hd | hd | hd <;> rw [hd] at h <;> cases h <;> exact ⟨_, rfl⟩
    obtain ⟨k, rfl⟩ := hs
    rcases signal_cases k a s with e | e <;> rw [e]
    · exact .notRelayed a rfl hd
    · exact .relayed k a rfl hd
  · rw [hd] at h
    simp only [exec, execSend] at h
    split at h
    · cases h
    · rename_i hr
      cases h
      exact .sent hd (by cases hx : s.role <;> simp_all)
  · rw [hd] at h; cases h; exact .cancel hd
  · rw [hd] at h; cases h; exact .iofault hd
  · rw [hd] at h; cases h
  · rw [hd] at h; cases h
  · rw [hd] at h; cases h

/-- Everything a step that answers a next state can do (R100): hold still, or take the first input, run it, keep the
capacities and forget its oracle. -/
theorem step_cases {s t : State} (h : step s = .next t) :
    configValid s.cfg = true ∧
      ((s.inputs = [] ∧ t = idleStep s) ∨
        ∃ tr os rest u, s.inputs = ⟨tr, os⟩ :: rest ∧ StepEffect (beginOp os rest s) tr u ∧
          withinCapacity u = true ∧ t = endOp u) := by
  have hv : configValid s.cfg = true := by
    by_contra hv
    unfold step stepWith checked at h
    split at h <;> simp [hv] at h
  refine ⟨hv, ?_⟩
  unfold step stepWith checked at h
  simp only [hv, if_true] at h
  split at h
  · rename_i hi
    cases h
    exact .inl ⟨hi, rfl⟩
  · rename_i input rest hi
    right
    obtain ⟨tr, os⟩ := input
    refine ⟨tr, os, rest, ?_⟩
    have hcfg : (beginOp os rest s).cfg = s.cfg := rfl
    cases tr with
    | command b o =>
      simp only [runInput, decode, runDecoded] at h
      cases he : exec (decodeCommand b o) (beginOp os rest s) with
      | next u =>
        rw [he] at h
        simp only [complete] at h
        split at h
        · cases h; exact ⟨u, hi, exec_command_cases he, ‹_›, rfl⟩
        · cases h
      | fault q => cases q
      | refused r => rw [he] at h; cases h
    | line l =>
      simp only [runInput, decode] at h
      by_cases hl : isLine l = true
      · simp only [hl, if_true, runDecoded] at h
        rw [← hcfg, exec_classify] at h
        by_cases hp : (beginOp os rest s).portOpen = true
        · simp only [hp, if_true, afterLine, complete] at h
          split at h
          · cases h; exact ⟨_, hi, .line hl hp, ‹_›, rfl⟩
          · cases h
        · rw [if_neg hp] at h
          simp only [complete] at h
          split at h
          · cases h; exact ⟨_, hi, .lineDropped hl (by simpa using hp), ‹_›, rfl⟩
          · cases h
      · simp only [hl] at h; cases h

end Sys2Proof.Machine
end

