-- ==== Sys2Proof/Tests/Slice0.lean ====
section
/-! SUPPORT. Tests of the model: the checks of WellFormed and of the configuration on ill-formed terms, the decoding of
written-out words, single steps whose results are the tables and programs of spec/95_test_vectors.md, and for every
obligation with hypotheses a witness that meets them. Bytes are ASCII codes; the comment beside a list gives its
text. -/

namespace Sys2Proof.Tests

open Sys2Proof.Machine Sys2Proof.Claims

/-! ### Byte strings and states -/

/-- STX -/
def stx : Bytes := [0x53, 0x54, 0x58]

/-- ETX -/
def etx : Bytes := [0x45, 0x54, 0x58]

/-- ENQ -/
def enq : Bytes := [0x45, 0x4E, 0x51]

/-- ACK -/
def ack : Bytes := [0x41, 0x43, 0x4B]

/-- HELLO -/
def hello : Bytes := [0x48, 0x45, 0x4C, 0x4C, 0x4F]

/-- ACK:5 -/
def ackFive : Bytes := [0x41, 0x43, 0x4B, 0x3A, 0x35]

/-- ACK:3554254475 -/
def ackGood : Bytes := [0x41, 0x43, 0x4B, 0x3A, 0x33, 0x35, 0x35, 0x34, 0x32, 0x35, 0x34, 0x34, 0x37, 0x35]

/-- ACK:1 -/
def ackBad : Bytes := [0x41, 0x43, 0x4B, 0x3A, 0x31]

/-- The port is open and nothing goes on: the state after `RESET, TICK 0000` (M1) under the TEST configuration. -/
def quietOpen : State := { State.reset with cfg := Config.test, portOpen := true, pollCnt := 1 }

/-- The start of the rows of table 2.6: IDLE_CNT 2, and outside IDLE a frame that holds HELLO. -/
def framed (r : RxState) : State :=
  { quietOpen with
    rxst := r, idleCnt := 2, fbuf := (if r = .idle then [] else [hello]),
    crcAcc := (if r = .idle then 0xFFFFFFFF#32 else 0xC1446436#32 ^^^ 0xFFFFFFFF#32) }

/-- The state after T2: a session for the message A waits in its first attempt. -/
def sending : State :=
  { quietOpen with role := .txWait, txIter := 1, txMsg := [0x41], txExp := 3554254475#32 }

/-- `RESET` only: the port is closed (T1). -/
def closed : State := { State.reset with cfg := Config.test }

/-- A poll is due on an open port, with CTS asserted in the snapshot. -/
def pollDue : State := { quietOpen with pollCnt := 0, snap := 0b0001#4 }

/-- A configuration whose sessions end at the first tick. -/
def shortConfig : Config := { Config.test with maxAttempts := 1, ackTicks := 1 }

/-- An open port with a SEND and a TICK presented. -/
def beforeSend (c : Config) : State :=
  { quietOpen with cfg := c, inputs := [⟨.command 0x40#8 [0x41], []⟩, ⟨.command 0x20#8 [], []⟩] }

/-- An operation presented to a state. -/
def given (b : Byte) (operand : Bytes) (s : State) : State := { s with inputs := [⟨.command b operand, []⟩] }

/-- A line presented to a state. -/
def givenLine (l : Bytes) (s : State) : State := { s with inputs := [⟨.line l, []⟩] }

/-- The next state of an outcome, if it is one. -/
def nextOf : Outcome → Option State
  | .next t => some t
  | .fault _ => none
  | .refused _ => none

/-- The refusal of an outcome, if it is one. -/
def refusalOf : Outcome → Option Refusal
  | .next _ => none
  | .fault _ => none
  | .refused r => some r

/-- The events of an outcome. -/
def eventsOf (o : Outcome) : Option (List Event) := (nextOf o).map State.events

/-- What table 2.6 shows of the state after a line: the next state, the buffer, the checksum, the idle counter. -/
structure FrameView where
  /-- `RXST` -/
  rxst : RxState
  /-- `FBUF` -/
  fbuf : List Bytes
  /-- `CRC_ACC xor 0xFFFFFFFF` -/
  crc : U32
  /-- `IDLE_CNT` -/
  idle : Nat
  deriving DecidableEq, Repr

/-- That view of an outcome. -/
def frameOf (o : Outcome) : Option FrameView :=
  (nextOf o).map fun t => ⟨t.rxst, t.fbuf, t.crcAcc ^^^ 0xFFFFFFFF#32, t.idleCnt⟩

/-- The state after a step, where it has one. -/
def afterStep (s : State) : State := (nextOf (step s)).getD s

/-- An outcome that has a next state is that state. -/
theorem step_afterStep {s : State} (h : (nextOf (step s)).isSome = true) : step s = .next (afterStep s) := by
  unfold afterStep
  cases ho : step s with
  | next t => rfl
  | fault r => rw [ho] at h; cases h
  | refused r => rw [ho] at h; cases h

/-- The events of ATT(A) under the TEST configuration (2.7). -/
def attemptA : List Event :=
  [.modeWrite, .purge, .write (etx ++ [0x0A]), .write (etx ++ [0x0A]), .write (etx ++ [0x0A]), .write (stx ++ [0x0A]),
    .write [0x41, 0x0A], .write (etx ++ [0x0A]), .modeRead]

/-- The events of FIN(ok) under the TEST configuration (2.7). -/
def fin (ok : Bool) : List Event :=
  [.modeWrite, .write (ack ++ [0x0A]), .write (ack ++ [0x0A]), .write (ack ++ [0x0A]), .modeRead, .sendDone ok]

/-- OPEN(115200, 8, 1, none). -/
def openEv : Event := .openPort 115200 8 1 .none

/-! ### Ill-formed terms and configurations -/

theorem test_wellFormed_refuses_reserved_imm_op : WellFormed Config.test (.reservedImm 2 1) = false := by decide

theorem test_wellFormed_refuses_reserved_imm_zero : WellFormed Config.test (.reservedImm 6 0) = false := by decide

theorem test_wellFormed_refuses_reserved_op : WellFormed Config.test (.reservedOp 6 1) = false := by decide

theorem test_wellFormed_refuses_line_stx : WellFormed Config.test (.lineStx etx) = false := by decide

theorem test_wellFormed_refuses_line_etx : WellFormed Config.test (.lineEtx stx) = false := by decide

theorem test_wellFormed_refuses_line_enq : WellFormed Config.test (.lineEnq ack) = false := by decide

theorem test_wellFormed_refuses_line_ack : WellFormed Config.test (.lineAck ackFive) = false := by decide

theorem test_wellFormed_refuses_line_ackv : WellFormed Config.test (.lineAckv ackFive [0x36]) = false := by decide

theorem test_wellFormed_refuses_line_other_token : WellFormed Config.test (.lineOther stx) = false := by decide

theorem test_wellFormed_refuses_line_other_ackv : WellFormed Config.test (.lineOther ackFive) = false := by decide

theorem test_wellFormed_refuses_separators :
    WellFormed Config.test (.lineStx (stx ++ [0x0A])) = false ∧ WellFormed Config.test (.lineEtx (etx ++ [0x0D])) = false ∧
    WellFormed Config.test (.lineEnq (enq ++ [0x0A])) = false ∧ WellFormed Config.test (.lineAck (ack ++ [0x0A])) = false ∧
    WellFormed Config.test (.lineAckv (ackFive ++ [0x0A]) [0x35, 0x0A]) = false ∧
    WellFormed Config.test (.lineOther [0x0A]) = false := by decide

/-- R8, one failing configuration for each constraint. -/
theorem test_config_constraints :
    configValid Config.ref = true ∧ configValid Config.test = true ∧
    configValid { Config.test with tokStx := [] } = false ∧
    configValid { Config.test with tokEtx := [0x45, 0x0A] } = false ∧
    configValid { Config.test with tokEnq := [0x20, 0x45] } = false ∧
    configValid { Config.test with tokEtx := Config.test.tokStx } = false ∧
    configValid { Config.test with tokEnq := ackFive } = false ∧
    configValid { Config.test with eol := [] } = false ∧
    configValid { Config.test with eol := [0x0A, 0x20] } = false ∧
    configValid { Config.test with capLine := [0x41, 0x0D] } = false := by decide

/-- R8, the numeric bounds. -/
theorem test_config_bounds :
    configValid { Config.test with maxAttempts := 0 } = false ∧ configValid { Config.test with ackTicks := 0 } = false ∧
    configValid { Config.test with pollTicks := 0 } = false ∧ configValid { Config.test with idleTicks := 0 } = false ∧
    configValid { Config.test with nPreEtx := 1 } = false ∧ configValid { Config.test with nPostAck := 0 } = false ∧
    configValid { Config.test with openMaxTries := 0 } = false ∧
    configValid { Config.test with maxAttempts := 1, ackTicks := 1, pollTicks := 1, idleTicks := 1, nPreEtx := 2,
                                   nPostAck := 1, openMaxTries := 1 } = true := by decide

/-! ### Decoding: the words of table 2.5 and the lines of table 2.2 -/

/-- The `op` field in bits [7:4] with a zero immediate, and TICK's levels in bits [3:0]. -/
theorem test_decode_operations :
    decodeTableWord 8 0b00000000 = some .reset ∧ decodeTableWord 8 0b00010000 = some (.rxChunk []) ∧
    decodeTableWord 8 0b00101011 = some (.tick 0b1011#4) ∧ decodeTableWord 8 0b00101111 = some (.tick 0b1111#4) ∧
    decodeTableWord 8 0b01000000 = some (.send []) ∧ decodeTableWord 8 0b01010000 = some .cancel ∧
    decodeTableWord 8 0b01100000 = some .iofault := by decide

/-- SIGNAL: kind in bits [3:1], level in bit 0. -/
theorem test_decode_signals :
    decodeTableWord 8 0b00110000 = some (.signalBreak false) ∧
    decodeTableWord 8 0b00110011 = some (.signalClearToSend true) ∧
    decodeTableWord 8 0b00110101 = some (.signalDataSetReady true) ∧
    decodeTableWord 8 0b00110110 = some (.signalError false) ∧ decodeTableWord 8 0b00111001 = some (.signalRing true) ∧
    decodeTableWord 8 0b00111011 = some (.signalRlsd true) := by decide

/-- The reserved spaces at their edges (R85). -/
theorem test_decode_reserved :
    decodeTableWord 8 0x3C = some (.reservedSignalKind 0b00#2) ∧ decodeTableWord 8 0x3F = some (.reservedSignalKind 0b11#2) ∧
    decodeTableWord 8 0x01 = some (.reservedImm 0 1) ∧ decodeTableWord 8 0x1F = some (.reservedImm 1 15) ∧
    decodeTableWord 8 0x61 = some (.reservedImm 6 1) ∧ decodeTableWord 8 0x70 = some (.reservedOp 7 0) ∧
    decodeTableWord 8 0xFF = some (.reservedOp 15 15) := by decide

/-- Lines of the six classes; the second is STX with white space around it. -/
theorem test_decode_lines :
    classify Config.test stx = .lineStx stx ∧
    classify Config.test [0x20, 0x53, 0x54, 0x58, 0x09] = .lineStx [0x20, 0x53, 0x54, 0x58, 0x09] ∧
    classify Config.test etx = .lineEtx etx ∧ classify Config.test enq = .lineEnq enq ∧
    classify Config.test ack = .lineAck ack ∧
    classify Config.test [0x20, 0x41, 0x43, 0x4B, 0x3A, 0x31, 0x32, 0x20] =
      .lineAckv [0x20, 0x41, 0x43, 0x4B, 0x3A, 0x31, 0x32, 0x20] [0x31, 0x32] ∧
    classify Config.test [0x1C, 0x53, 0x54, 0x58] = .lineOther [0x1C, 0x53, 0x54, 0x58] := by decide

/-- Near misses are OTHER: lower case, a space inside, a longer word, a space before the colon, the empty line. -/
theorem test_decode_other :
    [[0x73, 0x74, 0x78],
      [0x53, 0x20, 0x54, 0x58],
      [0x41, 0x43, 0x4B, 0x58],
      [0x41, 0x43, 0x4B, 0x20, 0x3A, 0x31],
      []].all (fun l => classify Config.test l == .lineOther l) = true := by decide

/-- A line as the word of its bytes, the first byte lowest; bytes with a separator are no line. -/
theorem test_decode_line_words :
    decodeTableWord 24 0x585453 = some (.lineStx stx) ∧ decodeTableWord 24 0x4B4341 = some (.lineAck ack) ∧
    decodeTableWord 16 0x0A41 = none := by decide

/-! ### Operands -/

/-- Table 2.4. -/
theorem test_parse_dec :
    parseDec [] = none ∧ parseDec [0x30] = some 0#32 ∧ parseDec [0x30, 0x30, 0x31, 0x32, 0x33] = some 123#32 ∧
    parseDec [0x34, 0x32, 0x39, 0x34, 0x39, 0x36, 0x37, 0x32, 0x39, 0x35] = some 4294967295#32 ∧
    parseDec [0x34, 0x32, 0x39, 0x34, 0x39, 0x36, 0x37, 0x32, 0x39, 0x36] = none ∧ parseDec [0x2D, 0x31] = none ∧
    parseDec [0x20, 0x35] = none ∧ parseDec [0x31, 0x32, 0x61] = none := by decide

/-- Table 2.4. -/
theorem test_dec :
    dec 0#32 = [0x30] ∧ dec 4067704210#32 = [0x34, 0x30, 0x36, 0x37, 0x37, 0x30, 0x34, 0x32, 0x31, 0x30] ∧
    dec 4294967295#32 = [0x34, 0x32, 0x39, 0x34, 0x39, 0x36, 0x37, 0x32, 0x39, 0x35] := by decide

/-- Table 2.1: the rows with a run of mixed separators, and with ordinary bytes 0x00 and 0xFF. -/
theorem test_split :
    split [0x53, 0x54] [0x58, 0x0A, 0x41, 0x42, 0x0D, 0x0A, 0x0D, 0x43, 0x44] =
      ([stx, [0x41, 0x42]], [0x43, 0x44]) ∧
    split [] [0x0D, 0x0A, 0x0D, 0x0A] = ([[]], []) ∧ split [0x41] [0x00, 0xFF, 0x0A] = ([[0x41, 0x00, 0xFF]], []) := by decide

/-! ### Single steps -/

/-- 2.10: RESET from a session gives the state of R310, whose STATUS is 0. -/
theorem test_reset :
    nextOf (exec .reset sending) = some closed ∧ (nextOf (exec .reset sending)).map status = some 0x0000#16 := by
  decide +kernel

/-- 2.10: STATUS in the state after P2 step 3. -/
theorem test_status : status sending = 0x010C#16 := by decide +kernel

/-- P1 step 5: a chunk boundary inside a separator pair; the frame of HELLO, an empty line, WORLD is acknowledged. -/
theorem test_rxChunk_frame :
    eventsOf (exec (.rxChunk [0x0A, 0x57, 0x4F, 0x52, 0x4C, 0x44, 0x0A, 0x45, 0x54, 0x58, 0x0A]) (framed .receiving)) =
      some [.modeWrite, .write [0x41, 0x43, 0x4B, 0x3A, 0x34, 0x30, 0x36, 0x37, 0x37, 0x30, 0x34, 0x32, 0x31, 0x30, 0x0A], .modeRead] := by
  decide +kernel

/-- T7: the last value of a chunk decides; a mismatch starts attempt 2. -/
theorem test_rxChunk_last_value :
    eventsOf (exec (.rxChunk (ackGood ++ [0x0A] ++ ackBad ++ [0x0A])) sending) = some attemptA ∧
    eventsOf (exec (.rxChunk (ackBad ++ [0x0A] ++ ackGood ++ [0x0A])) sending) = some (fin true) := by decide +kernel

/-- P4 step 11: CTS falls at a poll; the reconnect empties the frame. -/
theorem test_tick_falling_edge :
    eventsOf (exec (.tick 0b0000#4) { framed .receiving with pollCnt := 0, snap := 0b0001#4 }) =
      some [.purge, .close, openEv, .purge, .modeRead] ∧
    frameOf (exec (.tick 0b0000#4) { framed .receiving with pollCnt := 0, snap := 0b0001#4 }) =
      some ⟨.idle, [], 0#32, 0⟩ := by decide +kernel

/-- T15: the sender's deadline runs before the monitor's poll in one tick. -/
theorem test_tick_deadline_then_poll :
    eventsOf (exec (.tick 0b0000#4) { sending with txWaitCnt := 2, pollCnt := 0, snap := 0b0001#4 }) =
      some (attemptA ++ [.sendDone false, .purge, .close, openEv, .purge, .modeRead]) := by decide +kernel

/-- Table 2.9. -/
theorem test_signalBreak :
    eventsOf (exec (.signalBreak true) quietOpen) = some [.notify .breakSignal true] ∧
    eventsOf (exec (.signalBreak true) closed) = some [] := by decide

theorem test_signalClearToSend :
    eventsOf (exec (.signalClearToSend false) quietOpen) = some [.notify .clearToSend false] := by decide

theorem test_signalDataSetReady :
    eventsOf (exec (.signalDataSetReady true) quietOpen) = some [.notify .dataSetReady true] := by decide

theorem test_signalError : eventsOf (exec (.signalError true) quietOpen) = some [.notify .error true] := by decide

theorem test_signalRing : nextOf (exec (.signalRing true) quietOpen) = some quietOpen := by decide

theorem test_signalRlsd : eventsOf (exec (.signalRlsd false) quietOpen) = some [.notify .rlsd false] := by decide

/-- T2. -/
theorem test_send :
    nextOf (exec (.send [0x41]) quietOpen) = some { sending with events := attemptA } := by decide +kernel

/-- T3 and T1. -/
theorem test_send_refused_or_closed :
    refusalOf (exec (.send [0x43]) sending) = some .sendBusy ∧
    eventsOf (exec (.send [0x41]) closed) = some [.sendDone false] := by decide

/-- T12; and without a session nothing happens (T1). -/
theorem test_cancel :
    nextOf (exec .cancel sending) = some { quietOpen with events := fin false } ∧
    nextOf (exec .cancel closed) = some closed := by decide

/-- P5 step 14: no ACK burst. -/
theorem test_iofault_send :
    eventsOf (exec .iofault sending) = some [.sendDone false, .purge, .close, openEv, .purge, .modeRead] := by decide

/-- M11 and T1. -/
theorem test_iofault :
    frameOf (exec .iofault (framed .receiving)) = some ⟨.idle, [], 0#32, 0⟩ ∧
    nextOf (exec .iofault closed) = some closed := by decide

/-- R85 in a step: refused, whatever the state. -/
theorem test_reserved :
    [0x3C, 0x3F, 0x01, 0x6F, 0x70, 0xFF].all
      (fun w => refusalOf (step (sending.withFetchWord 8 w)) == some .reservedEncoding) = true := by decide +kernel

/-- Table 2.6, rows of STX. -/
theorem test_lineStx :
    frameOf (exec (.lineStx [0x20, 0x53, 0x54, 0x58, 0x20]) (framed .idle)) = some ⟨.receiving, [], 0#32, 0⟩ ∧
    frameOf (exec (.lineStx [0x20, 0x53, 0x54, 0x58, 0x20]) (framed .receiving)) =
      some ⟨.receiving, [hello, [0x20, 0x53, 0x54, 0x58, 0x20]], 0xC3B5E7CC#32, 2⟩ ∧
    frameOf (exec (.lineStx stx) (framed .waiting)) = some ⟨.waiting, [hello], 0xC1446436#32, 2⟩ := by decide +kernel

/-- Table 2.6, rows of ETX. -/
theorem test_lineEtx :
    eventsOf (exec (.lineEtx etx) (framed .receiving)) =
      some [.modeWrite, .write [0x41, 0x43, 0x4B, 0x3A, 0x33, 0x32, 0x34, 0x32, 0x34, 0x38, 0x34, 0x37, 0x39, 0x30, 0x0A], .modeRead] ∧
    frameOf (exec (.lineEtx etx) (framed .receiving)) = some ⟨.waiting, [hello], 0xC1446436#32, 0⟩ ∧
    frameOf (exec (.lineEtx etx) (framed .waiting)) = some ⟨.idle, [], 0#32, 0⟩ ∧
    frameOf (exec (.lineEtx etx) (framed .idle)) = some ⟨.idle, [], 0#32, 2⟩ := by decide +kernel

/-- Table 2.6, rows of ENQ. -/
theorem test_lineEnq :
    eventsOf (exec (.lineEnq enq) (framed .idle)) =
      some [.modeWrite, .write (Config.testCapLine ++ [0x0A]), .modeRead] ∧
    frameOf (exec (.lineEnq enq) (framed .receiving)) = some ⟨.receiving, [hello, enq], 0xAB402719#32, 2⟩ ∧
    frameOf (exec (.lineEnq enq) (framed .waiting)) = some ⟨.waiting, [hello], 0xC1446436#32, 2⟩ := by decide +kernel

/-- Table 2.6, rows of ACK. -/
theorem test_lineAck :
    eventsOf (exec (.lineAck ack) (framed .waiting)) = some [.deliver [hello]] ∧
    frameOf (exec (.lineAck ack) (framed .waiting)) = some ⟨.idle, [], 0#32, 0⟩ ∧
    frameOf (exec (.lineAck ack) (framed .receiving)) = some ⟨.receiving, [hello, ack], 0xE48508F2#32, 2⟩ ∧
    frameOf (exec (.lineAck ack) (framed .idle)) = some ⟨.idle, [], 0#32, 2⟩ := by decide +kernel

/-- Table 2.6, rows of ACK:5; and T5's value in the detector. -/
theorem test_lineAckv :
    frameOf (exec (.lineAckv ackFive [0x35]) (framed .receiving)) =
      some ⟨.receiving, [hello, ackFive], 0x1A92E72D#32, 2⟩ ∧
    frameOf (exec (.lineAckv ackFive [0x35]) (framed .waiting)) = some ⟨.waiting, [hello], 0xC1446436#32, 2⟩ ∧
    (nextOf (exec (.lineAckv ackFive [0x35]) sending)).map State.txRcv = some (.value 5#32) ∧
    (nextOf (exec (.lineAckv (ack ++ [0x3A]) []) sending)).map State.txRcv = some .malformed := by decide +kernel

/-- Table 2.6, rows of X and of the empty line. -/
theorem test_lineOther :
    frameOf (exec (.lineOther [0x58]) (framed .receiving)) = some ⟨.receiving, [hello, [0x58]], 0x78C9E7B6#32, 2⟩ ∧
    frameOf (exec (.lineOther []) (framed .receiving)) = some ⟨.receiving, [hello, []], 0xC1446436#32, 2⟩ ∧
    frameOf (exec (.lineOther [0x58]) (framed .idle)) = some ⟨.idle, [], 0#32, 2⟩ := by decide +kernel

/-- M1 and M2: the first tick after reset opens the port; an open that fails is tried again. -/
theorem test_first_step :
    eventsOf (step (State.reset.withFetchWord 8 0x20)) = some [openEv, .purge, .modeRead] ∧
    eventsOf (step { closed with inputs := [⟨.command 0x20#8 [], [.fail, .ok]⟩] }) =
      some [openEv, openEv, .purge, .modeRead] ∧
    eventsOf (step { closed with inputs := [⟨.command 0x20#8 [], [.busy]⟩] }) = some [openEv] := by decide +kernel

/-- R106: a result over a finite capacity is refused; at the bound it is accepted. -/
theorem test_capacity :
    refusalOf (step (given 0x40#8 [0x41, 0x42] { quietOpen with cfg := { Config.test with msgCap := some 1 } })) =
      some .capacity ∧
    (nextOf (step (given 0x40#8 [0x41] { quietOpen with cfg := { Config.test with msgCap := some 1 } }))).isSome = true ∧
    refusalOf (step (given 0x10#8 [0x41, 0x42] { quietOpen with cfg := { Config.test with fragCap := some 1 } })) =
      some .capacity ∧
    refusalOf (step (given 0x10#8 [0x41, 0x0A] { framed .receiving with cfg := { Config.test with bufCap := some 5 } })) =
      some .capacity := by decide +kernel

/-! ### Witnesses: states and operands that meet the hypotheses of each obligation -/

theorem witness_DecodeOfEncode :
    configValid Config.test = true ∧
    [Instr.reset, .rxChunk [0x41], .tick 0b1011#4, .signalBreak true, .signalClearToSend false, .signalDataSetReady true,
      .signalError true, .signalRing false, .signalRlsd true, .send [0x41], .cancel, .iofault, .reservedSignalKind 3,
      .reservedImm 6 15, .reservedOp 7 0, .lineStx stx, .lineEtx etx, .lineEnq enq, .lineAck ack,
      .lineAckv ackFive [0x35], .lineOther []].all (WellFormed Config.test) = true := by decide

theorem witness_ReservedEncodingsRefused :
    [0x70, 0xFF, 0x01, 0x1F, 0x4F, 0x51, 0x6F, 0x3C, 0x3F].all
      (fun n => refusalOf (exec (decodeCommand (BitVec.ofNat 8 n) []) quietOpen) == some .reservedEncoding) = true ∧
    [0x6F, 0x00, 0x10, 0x3B, 0x2F, 0x60].map
      (fun n => (refusalOf (exec (decodeCommand (BitVec.ofNat 8 n) []) quietOpen)).isSome) =
      [true, false, false, false, false, false] := by decide

theorem witness_EveryLineHasOneClass :
    configValid Config.test = true ∧ isLine [] = true ∧ isLine ackFive = true ∧ isLine stx = true := by decide

theorem witness_PaddingKeepsLineClass :
    ([0x20, 0x09] : Bytes).all isWs = true ∧ ([0x0B, 0x0C] : Bytes).all isWs = true ∧ ([] : Bytes).all isWs = true ∧
    lineClass (classify Config.test ([0x20, 0x09] ++ ackFive ++ [0x0B, 0x0C])) = some (5, [0x35]) := by decide

/-- The value 0, and longer texts that read as the values 0 and 10. -/
theorem witness_DecimalTextRoundTrip :
    (dec 0#32).head? = some 0x30#8 ∧ (dec 10#32).head? = some 0x31#8 ∧ parseDec [0x30, 0x30] = some 0#32 ∧
    parseDec [0x30, 0x31, 0x30] = some 10#32 := by decide

theorem witness_SplitFragmentRules :
    isLine [0x41] = true ∧ isSep 0x0A#8 = true ∧ isSep 0x0D#8 = true ∧ isLine [] = true ∧
    split [0x42] ([0x41] ++ 0x0D#8 :: [0x43]) = ([[0x42, 0x41]], [0x43]) := by decide

theorem witness_SplitEmptyLines : [] ∈ (split [] [0x0A]).1 ∧ [] ∉ (split [0x41] [0x0A]).1 := by decide

theorem witness_StreamContentPreserved :
    ([[0x41, 0x0D], [0x0A, 0x42]] : List Bytes).flatten = ([[0x41, 0x0D, 0x0A, 0x42]] : List Bytes).flatten := by decide

theorem witness_BothRolesNormaliseAlike :
    ([0x0A] : Bytes) ≠ [] ∧ ([0x0A] : Bytes).all isSep = true ∧
    ([[0x41], [], [0x42]] : List Bytes).flatten = stripSep [0x41, 0x0D, 0x0A, 0x42] := by decide

/-- The six line statements and IdleContainment: the receiver in each state, while `ROLE = RX`. -/
theorem witness_LineEffects :
    (framed .idle).role = .rx ∧ (framed .idle).rxst = .idle ∧ (framed .receiving).role = .rx ∧
    (framed .receiving).rxst = .receiving ∧ (framed .waiting).role = .rx ∧ (framed .waiting).rxst = .waiting := by decide

/-- LineOtherEffect's two instructions, IdleContainment's three outcomes. -/
theorem witness_IdleContainment :
    (framed .idle).role = .rx ∧ (framed .idle).rxst = .idle ∧
    lineClass (classify (framed .idle).cfg stx) = some (1, []) ∧ lineClass (classify (framed .idle).cfg enq) = some (3, []) ∧
    nextOf (exec (classify (framed .idle).cfg etx) (framed .idle)) = some (framed .idle) := by decide

theorem witness_AckDetectorEffect :
    sending.role = .txWait ∧ parseDec [0x35] = some 5#32 ∧ parseDec [] = none := by decide

theorem witness_LineInProcessing :
    (framed .processing).role = .rx ∧ (framed .processing).rxst = .processing := by decide

theorem witness_Resynchronization :
    configValid Config.test = true ∧
    [RxState.idle, .receiving, .waiting].all (fun r =>
      (framed r).role == .rx && (framed r).rxst != .processing && (framed r).cfg == Config.test && (framed r).rxst == r) =
      true := by decide

theorem witness_FrameIntegrity :
    configValid (framed .idle).cfg = true ∧ (framed .idle).role = .rx ∧ (framed .idle).rxst = .idle ∧
    ∀ l ∈ [hello, [], enq, stx, ack, ackFive], isEtx (framed .idle).cfg l = false := by decide

theorem witness_RxChunkEffect : closed.portOpen = false ∧ quietOpen.portOpen = true ∧ sending.portOpen = true := by decide

theorem witness_SignalsRelayed : closed.portOpen = false ∧ quietOpen.portOpen = true := by decide

theorem witness_SendStartsAttempt : quietOpen.role = .rx ∧ quietOpen.portOpen = true := by decide

theorem witness_SendPreconditions : closed.role = .rx ∧ closed.portOpen = false ∧ sending.role = .txWait := by decide

theorem witness_CancelEffect : sending.role = .txWait ∧ quietOpen.role = .rx := by decide

/-- One tick before the deadline, and at it. -/
theorem witness_TickDeadlineThenMonitor :
    quietOpen.role = .rx ∧ sending.role = .txWait ∧ { sending with txWaitCnt := 1 }.txWaitCnt + 1 ≠ sending.cfg.ackTicks ∧
    { sending with txWaitCnt := 2 }.txWaitCnt + 1 = sending.cfg.ackTicks := by decide

/-- A session that has the invariants. -/
theorem sending_invariants (c : Config) (ha : 1 ≤ c.ackTicks) (hm : 1 ≤ c.maxAttempts) (hp : 2 ≤ c.pollTicks)
    (is : List Input) : Invariants { sending with cfg := c, inputs := is } where
  notProcessing := by simp [sending, quietOpen, State.reset]
  idleEmpty _ := rfl
  checksum := rfl
  fragLine := rfl
  fbufLines := by simp [sending, quietOpen, State.reset]
  session _ := ⟨rfl, Nat.le_refl 1, hm, ha⟩
  noSession h := by simp [sending] at h
  consumed _ := rfl
  pollBound := hp
  idleBound := Nat.zero_le _
  closed h := by simp [sending, quietOpen] at h

/-- An open port without a session has them too. -/
theorem quietOpen_invariants (c : Config) (hp : 2 ≤ c.pollTicks) (is : List Input) :
    Invariants { quietOpen with cfg := c, inputs := is } where
  notProcessing := by simp [quietOpen, State.reset]
  idleEmpty _ := rfl
  checksum := rfl
  fragLine := rfl
  fbufLines := by simp [quietOpen, State.reset]
  session h := by simp [quietOpen, State.reset] at h
  noSession _ := ⟨rfl, rfl, rfl, rfl, rfl⟩
  consumed _ := rfl
  pollBound := hp
  idleBound := Nat.zero_le _
  closed h := by simp [quietOpen] at h

/-- RetryBound: the hypotheses hold of a SEND and the tick after it, under a configuration `c`. -/
def retryWitness (c : Config) : Prop :=
  Invariants (beforeSend c) ∧ (beforeSend c).portOpen = true ∧ nextInstr (beforeSend c) = some (.send [0x41]) ∧
    ∃ s es t, step (beforeSend c) = .next s ∧ Waits s 1 es t

/-- What is evaluated for that. -/
theorem retryWitness_of (c : Config) (hi : c.pollTicks = 2)
    (h1 : nextInstr (beforeSend c) = some (.send [0x41]))
    (h2 : (nextOf (step (beforeSend c))).isSome = true)
    (h3 : (afterStep (beforeSend c)).role = .txWait ∧ nextInstr (afterStep (beforeSend c)) = some (.tick 0) ∧
      nextLines (afterStep (beforeSend c)) = [])
    (h4 : (nextOf (step (afterStep (beforeSend c)))).isSome = true)
    (h5 : Event.close ∉ (afterStep (afterStep (beforeSend c))).events) : retryWitness c := by
  have hq : quiet (afterStep (beforeSend c)) := by
    refine ⟨?_, ?_, ?_, ?_⟩ <;> simp [h3.2.1, h3.2.2]
  have hw := Waits.more .start h3.1 hq (step_afterStep h4) h5
  rw [show 0 + ticks (afterStep (beforeSend c)) = 1 by simp [ticks, h3.2.1]] at hw
  exact ⟨quietOpen_invariants c (by omega) _, rfl, h1, _, _, _, step_afterStep h2, hw⟩

/-- RetryBound at the bound: P_MAX_ATTEMPTS * P_ACK_TICKS = 1. -/
theorem witness_RetryBound_end : retryWitness shortConfig ∧ 1 = shortConfig.maxAttempts * shortConfig.ackTicks :=
  ⟨retryWitness_of _ rfl (by decide) (by decide +kernel) (by decide +kernel) (by decide +kernel) (by decide +kernel),
    rfl⟩

/-- RetryBound below the bound: one tick of the first attempt of three ticks. -/
theorem witness_RetryBound_before :
    retryWitness Config.test ∧ 1 < Config.test.maxAttempts * Config.test.ackTicks :=
  ⟨retryWitness_of _ rfl (by decide) (by decide +kernel) (by decide +kernel) (by decide +kernel) (by decide +kernel),
    by decide⟩

/-- SuccessExactlyOnMatch: a step of a session with the invariants, one that matches and one that does not. -/
theorem witness_SuccessExactlyOnMatch :
    Invariants (given 0x10#8 (ackGood ++ [0x0A]) sending) ∧
    eventsOf (step (given 0x10#8 (ackGood ++ [0x0A]) sending)) = some (fin true) ∧
    eventsOf (step (given 0x10#8 (ackBad ++ [0x0A]) sending)) = some attemptA :=
  ⟨sending_invariants Config.test (by decide) (by decide) (by decide) _, by decide +kernel, by decide +kernel⟩

theorem witness_TickBetweenPolls : quietOpen.pollCnt ≠ 0 ∧ closed.pollCnt = 0 := by decide

/-- QuietPoll: a RING fall and a rising CTS are no falling edge; one below the watchdog's threshold, and a session. -/
theorem witness_QuietPoll :
    { pollDue with snap := 0b0100#4 }.pollCnt = 0 ∧ { pollDue with snap := 0b0100#4 }.portOpen = true ∧
    ¬ falls 0b0100#4 0b0001#4 ∧ idleAfter { pollDue with idleCnt := 2 } < pollDue.cfg.idleTicks ∧
    { sending with pollCnt := 0 }.role = .txWait ∧ { sending with pollCnt := 0 }.pollCnt = 0 := by
  unfold falls
  decide

/-- FallingEdgeReconnects: each of the three lines, and each way the open loop can go. -/
theorem witness_FallingEdgeReconnects :
    pollDue.pollCnt = 0 ∧ pollDue.portOpen = true ∧ falls 0b0001#4 0b0000#4 ∧ falls 0b0010#4 0b1101#4 ∧
    falls 0b1000#4 0b0111#4 := by
  unfold falls
  decide

/-- The four ways the open loop can go, at their bounds. -/
theorem witness_Opens :
    Opens 3 [] 1 true [] ∧ Opens 3 [.fail, .fail, .ok] 3 true [] ∧ Opens 3 [.fail, .busy, .ok] 2 false [.ok] ∧
    Opens 3 [.fail, .fail, .fail, .ok] 3 false [.ok] := by
  refine ⟨?_, ?_, ?_, ?_⟩ <;> unfold Opens <;> decide

/-- WatchdogReconnects at the threshold. -/
theorem witness_WatchdogReconnects :
    { pollDue with snap := 0, idleCnt := 3 }.pollCnt = 0 ∧ { pollDue with snap := 0, idleCnt := 3 }.portOpen = true ∧
    { pollDue with snap := 0, idleCnt := 3 }.role = .rx ∧ ¬ falls 0b0000#4 0b0000#4 ∧
    pollDue.cfg.idleTicks ≤ idleAfter { pollDue with snap := 0, idleCnt := 3 } ∧
    Opens pollDue.cfg.openMaxTries pollDue.oracle 1 true [] := by
  unfold falls Opens
  decide

theorem witness_PollOpensClosedPort :
    closed.pollCnt = 0 ∧ closed.portOpen = false ∧ Opens closed.cfg.openMaxTries closed.oracle 1 true [] := by
  unfold Opens
  decide

/-- At the bound of one try, whose failure leaves the port closed. -/
theorem witness_OpenLoopBounded :
    1 ≤ closed.cfg.openMaxTries ∧ { Config.test with openMaxTries := 1 }.openMaxTries = 1 ∧ Opens 1 [.fail] 1 false [] ∧
    openPort { closed with cfg := { Config.test with openMaxTries := 1 }, oracle := [.fail] } =
      { closed with cfg := { Config.test with openMaxTries := 1 }, events := [openEv] } := by
  unfold Opens
  decide

theorem witness_IofaultReconnects :
    closed.portOpen = false ∧ quietOpen.portOpen = true ∧ Opens quietOpen.cfg.openMaxTries quietOpen.oracle 1 true [] := by
  unfold Opens
  decide

theorem witness_StartupOpensPort : configValid Config.test = true ∧ configValid Config.ref = true := by decide

/-- StatusFields: the widest count that fits, one that does not, and the invariants. -/
theorem witness_StatusFields :
    { sending with txIter := 7 }.txIter < 8 ∧ Invariants (given 0x20#8 [] sending) :=
  ⟨by decide, sending_invariants Config.test (by decide) (by decide) (by decide) _⟩

/-- ConfigurationChecked: a configuration on each side. -/
theorem witness_ConfigurationChecked :
    configValid Config.test = true ∧
    refusalOf (step { quietOpen with cfg := { Config.test with nPreEtx := 1 } }) = some .badConfig := by decide

/-- StepRunsCommand: a result within its capacities, one over them, a refusal. -/
theorem witness_StepRunsCommand :
    configValid quietOpen.cfg = true ∧ (given 0x40#8 [0x41] quietOpen).inputs = [⟨.command 0x40#8 [0x41], []⟩] ∧
    (nextOf (exec (decodeCommand 0x40#8 [0x41]) quietOpen)).map withinCapacity = some true ∧
    (nextOf (exec (decodeCommand 0x40#8 [0x41, 0x42])
      { quietOpen with cfg := { Config.test with msgCap := some 1 } })).map withinCapacity = some false ∧
    refusalOf (exec (decodeCommand 0x40#8 [0x41]) sending) = some .sendBusy := by decide +kernel

/-- StepRunsLine: its three clauses. -/
theorem witness_StepRunsLine :
    configValid Config.test = true ∧ isLine [0x0D] = false ∧ isLine stx = true ∧ closed.portOpen = false ∧
    withinCapacity closed = true ∧ quietOpen.portOpen = true ∧
    refusalOf (step (givenLine [0x0D] quietOpen)) = some .notALine ∧
    (nextOf (step (givenLine stx closed))).map State.rxst = some .idle ∧
    (nextOf (step (givenLine stx quietOpen))).map State.rxst = some .receiving := by decide +kernel

theorem witness_IdleStepHoldsState : configValid closed.cfg = true ∧ closed.inputs = [] := by decide

/-- The statements about every step that answers a next state (ConfigurationFixed, StepKeepsInvariant,
StepKeepsExpectedChecksum, PurgeClearsFragment, WritesBracketed, ReceiverWriters, PortChangesWithEvents,
AtMostOneReconnect): a step that purges and closes, from a session whose expected checksum is right; and a step that
keeps the session. -/
theorem witness_steps :
    Invariants (given 0x60#8 [] sending) ∧ (given 0x60#8 [] sending).txExp = crc32 (stripSep sending.txMsg) ∧
    eventsOf (step (given 0x60#8 [] sending)) =
      some [.sendDone false, .purge, .close, openEv, .purge, .modeRead] ∧
    (nextOf (step (given 0x20#8 [] sending))).map State.role = some .txWait :=
  ⟨sending_invariants Config.test (by decide) (by decide) (by decide) _, by decide +kernel, by decide +kernel,
    by decide +kernel⟩

/-- RefusalsMarkTheRun: a refused step of a run, and the mark it leaves. -/
theorem witness_RefusalsMarkTheRun :
    refusalOf (step (given 0x70#8 [] quietOpen)) = some .reservedEncoding ∧
    (Run.advanceN 1 (Run.start (given 0x70#8 [] quietOpen))).refusedMark = true ∧
    (Run.advanceN 1 (Run.start (given 0x20#8 [] quietOpen))).refusedMark = false := by decide +kernel

/-- InboundBytesKept: a run of one chunk. -/
theorem witness_InboundBytesKept :
    quietOpen.frag = [] ∧
    (Run.advanceN 1 (Run.start (given 0x10#8 [0x41, 0x0A, 0x42] quietOpen))).trace.all
      (fun x => !x.verdict.events.contains .purge && nextInstr x.before != some .reset) = true ∧
    (Run.advanceN 1 (Run.start (given 0x10#8 [0x41, 0x0A, 0x42] quietOpen))).inbound = [0x41, 0x0A, 0x42] := by
  decide +kernel

theorem witness_InstancesIndependent :
    (stepInstance 1 [closed, given 0x20#8 [] closed]).isSome = true ∧ (0 : Nat) ≠ 1 := by decide +kernel

end Sys2Proof.Tests
end

section
/-! Proofs of the statements of 00_scope.md (R6 to R13): the helper functions of R12, the check of R8, the line
presented by itself, and the mark of a run. -/

namespace Sys2Proof

open Machine Claims

/-! ### White space around a line (R12, R73) -/

theorem trim_eq_rdropWhile (l : Bytes) : trim l = (l.dropWhile isWs).rdropWhile isWs := rfl

/-- White space before a line is trimmed. -/
theorem trim_append_left {p : Bytes} (hp : p.all isWs = true) (l : Bytes) : trim (p ++ l) = trim l := by
  rw [trim_eq_rdropWhile, List.dropWhile_append_of_pos (List.all_eq_true.1 hp), ← trim_eq_rdropWhile]

/-- White space after a line is trimmed, also when the line is white space only. -/
theorem trim_append_right {q : Bytes} (hq : q.all isWs = true) (l : Bytes) : trim (l ++ q) = trim l := by
  have hq := List.all_eq_true.1 hq
  rw [trim_eq_rdropWhile, trim_eq_rdropWhile, List.dropWhile_append]
  split
  · next h =>
    have hnil : l.dropWhile isWs = [] := List.isEmpty_iff.1 h
    rw [hnil, List.dropWhile_eq_nil_iff.2 hq]
  · rw [List.rdropWhile, List.reverse_append, List.dropWhile_append_of_pos (by simpa using hq), ← List.rdropWhile]

/-- The class of a line, with its value text, is read off the trimmed line (R71). -/
theorem lineClass_classify_congr (c : Config) {l m : Bytes} (h : trim l = trim m) :
    lineClass (classify c l) = lineClass (classify c m) := by
  simp only [classify, h]
  split_ifs
  · rfl
  · rfl
  · rfl
  · rfl
  · cases afterPrefix (ackPrefix c) (trim m) <;> rfl

/-- Settles O7: the class depends on the trimmed line only. -/
theorem paddingKeepsLineClass : Obligations.PaddingKeepsLineClass := by
  intro c p l q hp hq
  exact lineClass_classify_congr c ((trim_append_right hq (p ++ l)).trans (trim_append_left hp l))

/-! ### Decimal texts (R12, R75) -/

theorem isDigit_iff (b : Byte) : isDigit b = true ↔ 0x30 ≤ b.toNat ∧ b.toNat ≤ 0x39 := by
  simp [isDigit, BitVec.le_def]

theorem digit_toNat {n : Nat} (h : n < 10) : (digit n).toNat = 0x30 + n := by
  rw [digit, BitVec.toNat_ofNat]
  omega

theorem isDigit_digit {n : Nat} (h : n < 10) : isDigit (digit n) = true := by
  rw [isDigit_iff, digit_toNat h]
  omega

@[simp] theorem digitsValue_nil : digitsValue [] = 0 := rfl

/-- The last digit is the least significant one. -/
theorem digitsValue_append_singleton (s : Bytes) (b : Byte) :
    digitsValue (s ++ [b]) = 10 * digitsValue s + (b.toNat - 0x30) := by
  simp [digitsValue, List.foldl_append]

/-- A text of `n` digits reads as less than `10 ^ n`. -/
theorem digitsValue_lt {s : Bytes} (h : s.all isDigit = true) : digitsValue s < 10 ^ s.length := by
  induction s using List.reverseRecOn with
  | nil => simp
  | append_singleton s b ih =>
    rw [List.all_append, Bool.and_eq_true] at h
    obtain ⟨hs, hb⟩ := h
    have hb : 0x30 ≤ b.toNat ∧ b.toNat ≤ 0x39 := (isDigit_iff b).1 (by simpa using hb)
    have ih := ih hs
    rw [digitsValue_append_singleton, List.length_append, List.length_singleton, pow_succ]
    omega

/-- Below ten one digit is the text. -/
theorem decDigits_of_lt (k : Nat) {n : Nat} (h : n < 10) : decDigits (k + 1) n = [digit n] := if_pos h

/-- From ten on the last digit stands after the text of the tens. -/
theorem decDigits_of_ge (k : Nat) {n : Nat} (h : ¬ n < 10) :
    decDigits (k + 1) n = decDigits k (n / 10) ++ [digit (n % 10)] := if_neg h

theorem decDigits_ne_nil (k n : Nat) : decDigits (k + 1) n ≠ [] := by
  by_cases h : n < 10
  · simp [decDigits_of_lt k h]
  · simp [decDigits_of_ge k h]

theorem decDigits_all_isDigit (k n : Nat) : (decDigits k n).all isDigit = true := by
  induction k generalizing n with
  | zero => rfl
  | succ k ih =>
    by_cases h : n < 10
    · simp [decDigits_of_lt k h, isDigit_digit h]
    · simp [decDigits_of_ge k h, ih, isDigit_digit (Nat.mod_lt n (by decide : 0 < 10))]

/-- The tens of a number of `k + 1` digits have `k` digits. -/
theorem div_ten_lt_pow {n k : Nat} (h : n < 10 ^ (k + 1)) : n / 10 < 10 ^ k :=
  Nat.div_lt_of_lt_mul (by rwa [pow_succ'] at h)

/-- The digits of a number read back as the number, when there are enough of them. -/
theorem digitsValue_decDigits {k n : Nat} (hn : n < 10 ^ k) : digitsValue (decDigits k n) = n := by
  induction k generalizing n with
  | zero =>
    rw [pow_zero] at hn
    exact (Nat.lt_one_iff.1 hn).symm
  | succ k ih =>
    by_cases h : n < 10
    · rw [decDigits_of_lt k h, ← List.nil_append [digit n], digitsValue_append_singleton, digit_toNat h,
        digitsValue_nil]
      omega
    · rw [decDigits_of_ge k h, digitsValue_append_singleton, ih (div_ten_lt_pow hn),
        digit_toNat (Nat.mod_lt n (by decide))]
      omega

/-- Only the text of 0 begins with the digit 0. -/
theorem eq_zero_of_head?_decDigits {k n : Nat} (hn : n < 10 ^ k) (h0 : (decDigits k n).head? = some 0x30#8) :
    n = 0 := by
  induction k generalizing n with
  | zero => simp [decDigits] at h0
  | succ k ih =>
    by_cases h : n < 10
    · rw [decDigits_of_lt k h, List.head?_singleton, Option.some_inj] at h0
      have hd := digit_toNat h
      rw [h0] at hd
      exact Nat.add_eq_left.1 hd.symm
    · have htens := div_ten_lt_pow hn
      cases k with
      | zero => omega
      | succ k =>
        rw [decDigits_of_ge _ h, List.head?_append_of_ne_nil _ (decDigits_ne_nil k _)] at h0
        have := ih htens h0
        omega

/-- A number below `10 ^ m` gets at most `m` digits. -/
theorem length_decDigits_le (k : Nat) {n m : Nat} (hm : 0 < m) (hn : n < 10 ^ m) : (decDigits k n).length ≤ m := by
  induction k generalizing n m with
  | zero => exact Nat.zero_le m
  | succ k ih =>
    by_cases h : n < 10
    · rw [decDigits_of_lt k h]
      exact hm
    · obtain ⟨m, rfl⟩ := Nat.exists_eq_add_one.2 hm
      have htens := div_ten_lt_pow hn
      have hm : 0 < m := by
        by_contra h0
        rw [Nat.eq_zero_of_not_pos h0] at hn
        exact h hn
      rw [decDigits_of_ge k h, List.length_append, List.length_singleton]
      exact Nat.succ_le_succ (ih hm htens)

/-- What `parse_dec` reads (R12). -/
theorem parseDec_eq_some {t : Bytes} {v : U32} :
    parseDec t = some v ↔ t ≠ [] ∧ t.all isDigit = true ∧ digitsValue t = v.toNat := by
  have hv : v.toNat ≤ 4294967295 := Nat.le_of_lt_succ v.isLt
  unfold parseDec
  split
  · next h =>
    obtain ⟨hne, hd, hle⟩ := h
    rw [Option.some_inj, ← BitVec.toNat_inj, BitVec.toNat_ofNat, Nat.mod_eq_of_lt (Nat.lt_succ_of_le hle)]
    exact ⟨fun e => ⟨hne, hd, e⟩, fun ⟨_, _, e⟩ => e⟩
  · next h =>
    exact ⟨fun e => (nomatch e), fun ⟨hne, hd, e⟩ => absurd ⟨hne, hd, e ▸ hv⟩ h⟩

/-- A u32 has at most ten decimal digits. -/
theorem toNat_lt_pow_ten (v : U32) : v.toNat < 10 ^ 10 := v.isLt.trans (by decide)

/-- Settles O8, by the laws of `decDigits` with ten digits. -/
theorem decimalTextRoundTrip : Obligations.DecimalTextRoundTrip := by
  intro v
  have hv := toNat_lt_pow_ten v
  refine ⟨?_, decDigits_ne_nil 9 _, decDigits_all_isDigit 10 _, fun h0 => ?_, rfl, fun t ht => ?_⟩
  · exact parseDec_eq_some.2 ⟨decDigits_ne_nil 9 _, decDigits_all_isDigit 10 _, digitsValue_decDigits hv⟩
  · exact BitVec.toNat_inj.1 (eq_zero_of_head?_decDigits hv h0)
  · obtain ⟨hne, hd, e⟩ := parseDec_eq_some.1 ht
    exact length_decDigits_le 10 (List.length_pos_iff.2 hne) (e ▸ digitsValue_lt hd)

/-! ### The mark of a run (R283) -/

namespace Machine

/-- A refused step of a run (R11; log entry 14). -/
theorem Run.advance_of_refused {r : Run} {q : Refusal} (h : step r.state = .refused q) :
    r.advance = { state := { r.state with inputs := r.state.inputs.tail },
                  trace := r.trace ++ [⟨r.state, .refused q⟩], refusedMark := true } := by
  simp only [Run.advance, h]

/-- An accepted step of a run. -/
theorem Run.advance_of_next {r : Run} {t : State} (h : step r.state = .next t) :
    r.advance = { r with state := t, trace := r.trace ++ [⟨r.state, .accepted t.events⟩] } := by
  simp only [Run.advance, h]

/-- The mark is set exactly when some step so far was refused. -/
def Run.MarkExact (r : Run) : Prop := r.refusedMark = true ↔ ∃ x ∈ r.trace, ∃ q, x.verdict = .refused q

theorem Run.markExact_start (s : State) : (Run.start s).MarkExact := by simp [Run.MarkExact, Run.start]

theorem Run.MarkExact.advance {r : Run} (hr : r.MarkExact) : r.advance.MarkExact := by
  cases h : step r.state with
  | next t =>
    rw [Run.MarkExact] at hr
    simpa [Run.advance_of_next h, Run.MarkExact] using hr
  | refused q => simp [Run.advance_of_refused h, Run.MarkExact]
  | fault q => cases q

theorem Run.MarkExact.advanceN (n : Nat) {r : Run} (hr : r.MarkExact) : (Run.advanceN n r).MarkExact := by
  induction n generalizing r with
  | zero => exact hr
  | succ n ih => exact ih hr.advance

/-- A refused step adds no event to the history (R100). -/
theorem Run.history_advance_of_refused {r : Run} {q : Refusal} (h : step r.state = .refused q) :
    r.advance.history = r.history := by
  simp [Run.advance_of_refused h, Run.history, Verdict.events]

end Machine

/-- Settles O56: the first part is the refused step of a run, the second an invariant of every run. -/
theorem refusalsMarkTheRun : Obligations.RefusalsMarkTheRun := by
  refine ⟨fun r q h => ⟨?_, Run.history_advance_of_refused h, ?_⟩, fun n s => (Run.markExact_start s).advanceN n⟩
  · rw [Run.advance_of_refused h]
  · rw [Run.advance_of_refused h]

/-! ### The configuration check (R8) -/

theorem isSep_iff (b : Byte) : isSep b = true ↔ b = 0x0A#8 ∨ b = 0x0D#8 := by simp [isSep]

theorem isLine_iff (l : Bytes) : isLine l = true ↔ ∀ b ∈ l, b ≠ 0x0A#8 ∧ b ≠ 0x0D#8 := by
  simp [isLine, isSep]

theorem tokenValid_iff (t : Bytes) :
    tokenValid t = true ↔ t ≠ [] ∧ (∀ b ∈ t, b ≠ 0x0A#8 ∧ b ≠ 0x0D#8) ∧ trim t = t := by
  simp [tokenValid, ← isLine_iff, and_assoc]

/-- The check is the conjunction of the constraints of rule R8. -/
theorem configValid_iff (c : Config) : configValid c = true ↔ Constraints c := by
  have htok : [c.tokStx, c.tokEtx, c.tokEnq, c.tokAck].all tokenValid = true ↔
      ∀ t ∈ [c.tokStx, c.tokEtx, c.tokEnq, c.tokAck],
        t ≠ [] ∧ (∀ b ∈ t, b ≠ 0x0A#8 ∧ b ≠ 0x0D#8) ∧ trim t = t := by
    simp only [List.all_eq_true, tokenValid_iff]
  have hdistinct : [c.tokStx, c.tokEtx, c.tokEnq, c.tokAck].Nodup ↔
      c.tokStx ≠ c.tokEtx ∧ c.tokStx ≠ c.tokEnq ∧ c.tokStx ≠ c.tokAck ∧ c.tokEtx ≠ c.tokEnq ∧ c.tokEtx ≠ c.tokAck ∧
        c.tokEnq ≠ c.tokAck := by
    simp [and_assoc]
  have hprefix : [c.tokStx, c.tokEtx, c.tokEnq].all (fun t => (afterPrefix (ackPrefix c) t).isNone) = true ↔
      ∀ t ∈ [c.tokStx, c.tokEtx, c.tokEnq], ¬ (c.tokAck ++ [0x3A#8]) <+: t := by
    simp only [List.all_eq_true, Option.isNone_iff_eq_none, afterPrefix_eq_none, ackPrefix]
  have heol : c.eol.all isSep = true ↔ ∀ b ∈ c.eol, b = 0x0A#8 ∨ b = 0x0D#8 := by
    simp only [List.all_eq_true, isSep_iff]
  have hne : (!c.eol.isEmpty) = true ↔ c.eol ≠ [] := by simp
  unfold configValid Constraints
  simp only [Bool.and_eq_true, decide_eq_true_iff, htok, hdistinct, hprefix, heol, hne, isLine_iff, and_assoc]

namespace Machine

/-- A configuration that passes the check lets the step through (R8). -/
theorem checked_of_configValid {s : State} (h : configValid s.cfg = true) (o : Outcome) : checked s o = o := if_pos h

theorem checked_of_not_configValid {s : State} (h : ¬ configValid s.cfg = true) (o : Outcome) :
    checked s o = .refused .badConfig := if_neg h

/-- Under a configuration that fails the check every step is refused (R8; log entry 12). -/
theorem step_of_not_configValid {s : State} (h : ¬ configValid s.cfg = true) : step s = .refused .badConfig := by
  unfold step stepWith
  split
  · exact checked_of_not_configValid h _
  · exact checked_of_not_configValid h _

/-- A step under a legal configuration runs the first input (R100). -/
theorem step_of_inputs {s : State} {input : Input} {rest : List Input} (h : configValid s.cfg = true)
    (hi : s.inputs = input :: rest) : step s = runInput exec input rest s := by
  simp only [step, stepWith, hi, checked_of_configValid h]

end Machine

/-- Settles O43, by the check's own lemma and the step it refuses. -/
theorem configurationChecked : Obligations.ConfigurationChecked :=
  ⟨configValid_iff, fun s hs => step_of_not_configValid (fun h => hs ((configValid_iff s.cfg).1 h))⟩

/-! ### A line presented by itself (log entry 4) -/

namespace Machine

theorem withinCap_iff (n : Nat) (cap : Option Nat) : withinCap n cap = true ↔ ∀ m, cap = some m → n ≤ m := by
  cases cap <;> simp [withinCap]

/-- The capacity check is the conjunction of the bounds of rule R106. -/
theorem withinCapacity_iff (s : State) : withinCapacity s = true ↔ Within s := by
  simp only [withinCapacity, Within, Bool.and_eq_true, withinCap_iff, and_assoc]

/-- A result within its capacities is accepted (R100). -/
theorem complete_next_of_within {s : State} (h : Within s) : complete (.next s) = .next { s with oracle := [] } :=
  if_pos ((withinCapacity_iff s).2 h)

/-- The end of a send in the words of the statements (R199). -/
theorem finish_eq_finished (ok : Bool) (s : State) : finish ok s = finished ok s := by
  rw [finish_eq]
  simp [finished, burstEvents, ending, lineEvent, writes]

/-- The next attempt, or the end of the send, in the words of the statements (R198). -/
theorem attemptFailed_eq_retried (s : State) : attemptFailed s = retried s := by
  unfold attemptFailed retried
  rw [finish_eq_finished]
  rfl

/-- The evaluation in the words of the statements (R196). -/
theorem senderEvaluate_eq_evaluated (s : State) : senderEvaluate s = evaluated s := by
  cases h : s.txRcv with
  | none => simp only [senderEvaluate, evaluated, h]
  | value c => simp only [senderEvaluate, evaluated, h, finish_eq_finished, attemptFailed_eq_retried]
  | malformed => simp only [senderEvaluate, evaluated, h, attemptFailed_eq_retried]

/-- The end of a delivery in the words of the statements (R107). -/
theorem endDelivery_eq (s : State) : endDelivery s = if s.role = .txWait then evaluated s else s := by
  rw [endDelivery, senderEvaluate_eq_evaluated]

/-- Bytes with a separator are refused (R9). -/
theorem runInput_line_of_not_isLine {l : Bytes} (h : isLine l = false) (os : List OpenOutcome) (rest : List Input)
    (s : State) : runInput exec ⟨.line l, os⟩ rest s = .refused .notALine := by
  simp [runInput, decode, h]

/-- A line is dropped on a closed port (R107). -/
theorem runInput_line_of_closed {l : Bytes} {s : State} (h : isLine l = true) (hp : s.portOpen = false)
    (os : List OpenOutcome) (rest : List Input) :
    runInput exec ⟨.line l, os⟩ rest s = complete (.next (beginOp os rest s)) := by
  simp [runInput, decode, h, runDecoded, hp]

/-- On an open port a line is routed, and the evaluation that ends a delivery follows (R107, R108). -/
theorem runInput_line_of_open {l : Bytes} {s : State} (h : isLine l = true) (hp : s.portOpen = true)
    (os : List OpenOutcome) (rest : List Input) :
    runInput exec ⟨.line l, os⟩ rest s = complete (.next (endDelivery (route l (beginOp os rest s)))) := by
  have hexec : exec (classify s.cfg l) (beginOp os rest s) = .next (route l (beginOp os rest s)) :=
    exec_classify l (beginOp os rest s)
  simp [runInput, decode, h, runDecoded, hp, hexec, afterLine]

end Machine

/-- Settles O45, one clause for each way `runInput` takes a line. -/
theorem stepRunsLine : Obligations.StepRunsLine := by
  intro s l os rest hcfg hi
  have hstep := step_of_inputs hcfg hi
  refine ⟨fun hl => ?_, fun hl hp hw => ?_, fun hl hp => ⟨_, exec_classify l (beginOp os rest s), fun hw => ?_⟩⟩
  · rw [hstep, runInput_line_of_not_isLine hl]
  · rw [hstep, runInput_line_of_closed hl hp]
    exact complete_next_of_within (s := beginOp os rest s) hw
  · rw [hstep, runInput_line_of_open hl hp, endDelivery_eq]
    exact complete_next_of_within hw

end Sys2Proof
end

section
/-! Proofs of the statements of 10_state.md (R20 to R39): the nine invariants, the expected checksum of a session, the
events behind a change of `PORT_OPEN`, and the fields of STATUS. -/

namespace Sys2Proof

open Machine Claims

/-- The bounds of rule R8 that the counters of a session and of the monitor rest on. -/
theorem counterBounds_of_configValid {c : Config} (h : configValid c = true) :
    1 ≤ c.maxAttempts ∧ 1 ≤ c.ackTicks ∧ 1 ≤ c.pollTicks := by
  obtain ⟨-, -, -, -, -, -, -, -, -, -, -, hmax, hack, hpoll, -⟩ := (configValid_iff c).1 h
  exact ⟨hmax, hack, hpoll⟩

namespace Machine

variable {s u : State}

theorem role_eq_rx_of_ne (h : s.role ≠ .txWait) : s.role = .rx := by cases hr : s.role <;> simp_all

/-! ### The invariants under the operations of the sender (R39)

A new invariant is the old one with the items named that the operation writes to. -/

/-- The items of rule R39 that speak of no register of the sender: 1 to 4 and 8. They hold also inside a sender
operation, whose registers the other items describe only at its end. -/
structure NonSenderInvariants (s : State) : Prop where
  notProcessing : s.rxst ≠ .processing
  idleEmpty : s.rxst = .idle → s.fbuf = []
  checksum : s.crcAcc = crcUpdate 0xFFFFFFFF#32 s.fbuf.flatten
  fragLine : isLine s.frag = true
  fbufLines : ∀ l ∈ s.fbuf, isLine l = true
  pollBound : s.pollCnt < s.cfg.pollTicks
  idleBound : s.idleCnt ≤ s.cfg.idleTicks

theorem Invariants.nonSender (h : Invariants s) : NonSenderInvariants s := { h with }

/-- Events are in no invariant. -/
theorem Invariants.emits (h : Invariants s) (es : List Event) : Invariants (emits es s) := { h with }

/-- RESET establishes the invariants, from any state (R101, R310). -/
theorem invariants_resetRegisters (s : State) (hpoll : 1 ≤ s.cfg.pollTicks) : Invariants (resetRegisters s) where
  notProcessing := nofun
  idleEmpty := fun _ => rfl
  checksum := rfl
  fragLine := rfl
  fbufLines := nofun
  session := nofun
  noSession := fun _ => ⟨rfl, rfl, rfl, rfl, rfl⟩
  consumed := nofun
  pollBound := hpoll
  idleBound := Nat.zero_le _
  closed := fun _ => rfl

/-- The end of a session leaves the sender as item 6 asks (R199). -/
theorem NonSenderInvariants.finish (h : NonSenderInvariants s) (ok : Bool) : Invariants (finish ok s) :=
  { h with
    session := nofun
    noSession := fun _ => ⟨rfl, rfl, rfl, rfl, rfl⟩
    consumed := nofun
    idleBound := Nat.zero_le _
    closed := fun _ => rfl }

/-- An attempt counts one up, and begins its wait with nothing received (R192). -/
theorem NonSenderInvariants.startAttempt (h : NonSenderInvariants s) (hopen : s.portOpen = true)
    (hiter : s.txIter < s.cfg.maxAttempts) (hack : 0 < s.cfg.ackTicks) : Invariants (startAttempt s) :=
  { h with
    fragLine := rfl
    session := fun _ => ⟨hopen, Nat.succ_pos _, hiter, hack⟩
    noSession := nofun
    consumed := fun _ => rfl
    closed := fun hclosed => Bool.noConfusion (hopen.symm.trans hclosed) }

theorem NonSenderInvariants.attemptFailed (h : NonSenderInvariants s) (hopen : s.portOpen = true)
    (hack : 0 < s.cfg.ackTicks) : Invariants (attemptFailed s) := by
  rcases attemptFailed_cases s with ⟨hiter, e⟩ | ⟨-, e⟩
  · rw [e]
    exact h.startAttempt hopen hiter hack
  · rw [e]
    exact h.finish false

theorem Invariants.ackTicks_pos (h : Invariants s) (hrole : s.role = .txWait) : 0 < s.cfg.ackTicks := by
  obtain ⟨-, -, -, hcnt⟩ := h.session hrole
  exact Nat.zero_lt_of_lt hcnt

/-- The evaluation consumes whatever was received (R196, R31). -/
theorem Invariants.senderEvaluate (h : Invariants s) (hrole : s.role = .txWait) (r : TxRcv) :
    Invariants (senderEvaluate { s with txRcv := r }) := by
  obtain ⟨hopen, -⟩ := h.session hrole
  have hns : NonSenderInvariants { s with txRcv := r } := { h with }
  rcases senderEvaluate_cases { s with txRcv := r } with ⟨hnone, e⟩ | ⟨-, e⟩ | ⟨-, e⟩
  · rw [e]
    exact { h with noSession := fun hrx => Role.noConfusion (hrole.symm.trans hrx), consumed := fun _ => hnone }
  · rw [e]
    exact hns.finish true
  · rw [e]
    exact hns.attemptFailed hopen (h.ackTicks_pos hrole)

/-- The deadline keeps the count of waited ticks below its bound (R197). -/
theorem Invariants.senderTick (h : Invariants s) (hrole : s.role = .txWait) : Invariants (senderTick s) := by
  obtain ⟨hopen, hmin, hmax, hcnt⟩ := h.session hrole
  rcases senderTick_cases s with ⟨hne, e⟩ | ⟨-, e⟩
  · rw [e]
    exact { h with
      session := fun _ => ⟨hopen, hmin, hmax, Nat.lt_of_le_of_ne hcnt hne⟩
      noSession := fun hrx => Role.noConfusion (hrole.symm.trans hrx) }
  · rw [e]
    have hns : NonSenderInvariants { s with txWaitCnt := s.txWaitCnt + 1 } := { h with }
    exact hns.attemptFailed hopen (h.ackTicks_pos hrole)

theorem Invariants.senderStart (h : Invariants s) (hvalid : configValid s.cfg = true) (message : Bytes) :
    Invariants (senderStart message s) := by
  obtain ⟨hmax, hack, -⟩ := counterBounds_of_configValid hvalid
  unfold Machine.senderStart
  split
  · next hopen =>
    have hns : NonSenderInvariants { s with txMsg := message, txExp := crc32 (stripSep message), txIter := 0 } :=
      { h with }
    exact hns.startAttempt hopen hmax hack
  · exact h.emits _

theorem Invariants.senderCancel (h : Invariants s) : Invariants (senderCancel s) := by
  unfold Machine.senderCancel
  split
  · exact h.nonSender.finish false
  · exact h

/-! ### The invariants under the operations of the monitor -/

/-- The open loop runs on a closed port, which has no session (R234). -/
theorem Invariants.afterOpen (h : Invariants s) (hclosed : s.portOpen = false) (n : Nat) (ok : Bool)
    (rest : List OpenOutcome) : Invariants (afterOpen n ok rest s) :=
  { h with
    fragLine := by cases ok <;> simp [Machine.afterOpen, h.fragLine]
    session := fun hrole => Role.noConfusion ((h.closed hclosed).symm.trans hrole)
    idleBound := by cases ok <;> simp [Machine.afterOpen, h.idleBound]
    closed := fun _ => h.closed hclosed }

/-- A reconnect leaves no session, an empty frame and a closed port before it reopens (R240). -/
theorem Invariants.beforeReopen (h : Invariants s) : Invariants (beforeReopen s) := by
  rw [beforeReopen_eq]
  exact
    { h with
      notProcessing := nofun
      idleEmpty := fun _ => rfl
      checksum := rfl
      fragLine := rfl
      fbufLines := nofun
      session := nofun
      noSession := fun _ => by cases hrole : s.role <;> simp [h.noSession, hrole]
      consumed := nofun
      idleBound := Nat.zero_le _
      closed := fun _ => rfl }

@[simp] theorem beforeReopen_portOpen (s : State) : (beforeReopen s).portOpen = false := by rw [beforeReopen_eq]

@[simp] theorem beforeReopen_role (s : State) : (beforeReopen s).role = .rx := by rw [beforeReopen_eq]

theorem Invariants.reconnect (h : Invariants s) : Invariants (reconnect s) := by
  obtain ⟨n, ok, rest, -, -, e⟩ := reconnect_cases s
  rw [e]
  exact h.beforeReopen.afterOpen (beforeReopen_portOpen s) n ok rest

theorem Invariants.monitorTick (h : Invariants s) (v : Levels) : Invariants (monitorTick v s) := by
  obtain ⟨p, i, hp, hi, hcases⟩ := monitorTick_all v s
  have hcount (w : Levels) : Invariants { s with pollCnt := p, idleCnt := i, snap := w } :=
    { h with pollBound := hp h.pollBound, idleBound := hi h.idleBound }
  rcases hcases with e | ⟨hclosed, n, ok, rest, -, e⟩ | ⟨-, n, ok, rest, -, e⟩ | ⟨-, e⟩
  · rw [e]
    exact hcount s.snap
  · rw [e]
    exact (hcount s.snap).afterOpen hclosed n ok rest
  · rw [e]
    exact (hcount v).beforeReopen.afterOpen (beforeReopen_portOpen _) n ok rest
  · rw [e]
    exact hcount v

/-! ### The invariants along the lines of a delivery -/

theorem Invariants.append (h : Invariants s) (hx : s.rxst = .receiving) {l : Bytes} (hl : isLine l = true) :
    Invariants (append l s) :=
  { h with
    idleEmpty := fun hidle => RxState.noConfusion (hx.symm.trans hidle)
    checksum := by simp [h.checksum, crcUpdate_append]
    fbufLines := by simpa [or_imp, forall_and] using ⟨h.fbufLines, hl⟩ }

/-- The acknowledgement of a frame keeps the frame, to be delivered or aborted (R153, R158). -/
theorem Invariants.acknowledge (h : Invariants s) (hx : s.rxst = .receiving) :
    Invariants (processing (setRxst .processing s)) := by
  rw [acknowledge_eq hx]
  exact { h with notProcessing := nofun, idleEmpty := nofun, idleBound := Nat.zero_le _ }

theorem Invariants.endFrame (h : Invariants s) (hx : s.rxst = .waiting) : Invariants (endFrame s) := by
  rw [endFrame_eq (by simp [hx])]
  exact
    { h with
      notProcessing := nofun
      idleEmpty := fun _ => rfl
      checksum := rfl
      fbufLines := nofun
      idleBound := Nat.zero_le _ }

theorem Invariants.beginFrame (h : Invariants s) (hx : s.rxst = .idle) :
    Invariants (setRxst .receiving (clearFrame s)) := by
  rw [setRxst_of_ne _ _ (by simp [hx])]
  exact
    { h with
      notProcessing := nofun
      idleEmpty := nofun
      checksum := rfl
      fbufLines := nofun
      idleBound := Nat.zero_le _ }

/-- A line given to the receiver keeps the invariants, whatever its class (R150). -/
theorem Invariants.route (h : Invariants s) (hrole : s.role = .rx) {l : Bytes} (hl : isLine l = true) :
    Invariants (route l s) := by
  obtain ⟨hstep, hreceiving⟩ := route_cases l h.notProcessing
  by_cases hx : s.rxst = .receiving
  · rcases hreceiving hrole hx with e | e
    · rw [e]
      exact h.append hx hl
    · rw [e]
      exact h.acknowledge hx
  · generalize Machine.route l s = t at hstep ⊢
    cases hstep with
    | ignored => exact h
    | begun _ hidle => exact h.beginFrame hidle
    | appended _ _ hx' => exact absurd hx' hx
    | acknowledged _ hx' => exact absurd hx' hx
    | announced => exact h.emits _
    | delivered _ hwait => exact (h.emits _).endFrame hwait
    | aborted _ hwait => exact h.endFrame hwait
    | received _ hrole' => exact Role.noConfusion (hrole.symm.trans hrole')

theorem Invariants.routeAll (h : Invariants s) (hrole : s.role = .rx) {ls : List Bytes}
    (hls : ∀ l ∈ ls, isLine l = true) : Invariants (routeAll ls s) := by
  induction ls generalizing s with
  | nil => exact h
  | cons l ls ih =>
    rw [List.forall_mem_cons] at hls
    obtain ⟨hl, hls⟩ := hls
    obtain ⟨-, hrole', -⟩ := route_frame l s
    exact ih (h.route hrole hl) (hrole'.trans hrole) hls

/-- In a session a line reaches the acknowledgement detector only, which writes `TX_RCV` and nothing else (R62, R195).
This holds in every receiver state. -/
theorem route_of_txWait (hrole : s.role = .txWait) (l : Bytes) : ∃ r, route l s = { s with txRcv := r } := by
  have hrx : s.role ≠ .rx := by simp [hrole]
  rcases classify_cases s.cfg l with h | h | h | h | ⟨v, h⟩ | h
  all_goals
    simp only [route, h]
    exact ⟨_, if_neg hrx⟩

theorem routeAll_of_txWait (hrole : s.role = .txWait) (ls : List Bytes) :
    ∃ r, routeAll ls s = { s with txRcv := r } := by
  induction ls generalizing s with
  | nil => exact ⟨s.txRcv, rfl⟩
  | cons l ls ih =>
    obtain ⟨r, e⟩ := route_of_txWait hrole l
    rw [routeAll_cons, e]
    exact ih (s := { s with txRcv := r }) hrole

/-- A delivery of lines, with the evaluation at its end, keeps the invariants: while `ROLE = RX` each line does, while
`ROLE = TX_WAIT` the evaluation restores item 7 (R107, R108). -/
theorem Invariants.deliver (h : Invariants s) {ls : List Bytes} (hls : ∀ l ∈ ls, isLine l = true) :
    Invariants (endDelivery (Machine.routeAll ls s)) := by
  obtain ⟨-, hrole', -⟩ := routeAll_frame ls s
  unfold endDelivery
  split
  · next hrole =>
    rw [hrole'] at hrole
    obtain ⟨r, e⟩ := routeAll_of_txWait hrole ls
    rw [e]
    exact h.senderEvaluate hrole r
  · next hrole =>
    rw [hrole'] at hrole
    exact h.routeAll (role_eq_rx_of_ne hrole) hls

/-! ### The invariants of a step -/

theorem StepEffect.invariants {tr : Transaction} (he : StepEffect s tr u) (hvalid : configValid s.cfg = true)
    (h : Invariants s) : Invariants u := by
  cases he with
  | reset =>
    obtain ⟨-, -, hpoll⟩ := counterBounds_of_configValid hvalid
    exact invariants_resetRegisters s hpoll
  | @chunk _ _ data =>
    obtain ⟨hlines, hfrag⟩ := split_isLine h.fragLine data
    have hsplit : Invariants { s with frag := (split s.frag data).2 } := { h with fragLine := hfrag }
    exact hsplit.deliver hlines
  | chunkDropped => exact h
  | tick =>
    split
    · next hrole => exact (h.senderTick hrole).monitorTick _
    · exact h.monitorTick _
  | relayed => exact h.emits _
  | notRelayed => exact h
  | sent => exact h.senderStart hvalid _
  | cancel => exact h.senderCancel
  | iofault =>
    split
    · exact h.reconnect
    · exact h
  | line hl => exact h.deliver (List.forall_mem_singleton.2 hl)
  | lineDropped => exact h

/-! ### The expected checksum of a session (R30) -/

/-- What rule R30 says of `TX_EXP`. -/
def ExpectsChecksum (s : State) : Prop := s.role = .txWait → s.txExp = crc32 (stripSep s.txMsg)

theorem expectsChecksum_of_rx (hrole : s.role = .rx) : ExpectsChecksum s :=
  fun hwait => Role.noConfusion (hrole.symm.trans hwait)

/-- A further attempt is for the message of the one before (R192, R198). -/
theorem expectsChecksum_attemptFailed (h : s.txExp = crc32 (stripSep s.txMsg)) : ExpectsChecksum (attemptFailed s) := by
  rcases attemptFailed_cases s with ⟨-, e⟩ | ⟨-, e⟩
  · rw [e]
    exact fun _ => h
  · rw [e]
    exact expectsChecksum_of_rx rfl

theorem expectsChecksum_senderEvaluate (h : s.txExp = crc32 (stripSep s.txMsg)) :
    ExpectsChecksum (senderEvaluate s) := by
  rcases senderEvaluate_cases s with ⟨-, e⟩ | ⟨-, e⟩ | ⟨-, e⟩
  · rw [e]
    exact fun _ => h
  · rw [e]
    exact expectsChecksum_of_rx rfl
  · rw [e]
    exact expectsChecksum_attemptFailed h

theorem expectsChecksum_senderTick (h : s.txExp = crc32 (stripSep s.txMsg)) : ExpectsChecksum (senderTick s) := by
  rcases senderTick_cases s with ⟨-, e⟩ | ⟨-, e⟩
  · rw [e]
    exact fun _ => h
  · rw [e]
    exact expectsChecksum_attemptFailed (s := { s with txWaitCnt := s.txWaitCnt + 1 }) h

/-- SEND takes the message and its checksum together (R190). -/
theorem ExpectsChecksum.senderStart (h : ExpectsChecksum s) (message : Bytes) :
    ExpectsChecksum (senderStart message s) := by
  unfold Machine.senderStart
  split
  · exact fun _ => rfl
  · exact h

theorem ExpectsChecksum.senderCancel (h : ExpectsChecksum s) : ExpectsChecksum (senderCancel s) := by
  unfold Machine.senderCancel
  split
  · exact expectsChecksum_of_rx rfl
  · exact h

theorem expectsChecksum_reconnect (s : State) : ExpectsChecksum (reconnect s) := by
  obtain ⟨n, ok, rest, -, -, e⟩ := reconnect_cases s
  rw [e]
  exact expectsChecksum_of_rx (beforeReopen_role s)

/-- The monitor writes no register of a session but by the reconnect, which ends it (R242). -/
theorem ExpectsChecksum.monitorTick (h : ExpectsChecksum s) (v : Levels) : ExpectsChecksum (monitorTick v s) := by
  obtain ⟨p, i, -, -, e | ⟨-, n, ok, rest, -, e⟩ | ⟨-, n, ok, rest, -, e⟩ | ⟨-, e⟩⟩ := monitorTick_all v s
  · rw [e]
    exact h
  · rw [e]
    exact h
  · rw [e]
    exact expectsChecksum_of_rx (beforeReopen_role _)
  · rw [e]
    exact h

/-- The lines of a delivery leave the message and its checksum (R195); the evaluation may start one more attempt. -/
theorem ExpectsChecksum.deliver (h : ExpectsChecksum s) (ls : List Bytes) :
    ExpectsChecksum (endDelivery (routeAll ls s)) := by
  obtain ⟨-, hrole', -⟩ := routeAll_frame ls s
  unfold endDelivery
  split
  · next hrole =>
    rw [hrole'] at hrole
    obtain ⟨r, e⟩ := routeAll_of_txWait hrole ls
    rw [e]
    exact expectsChecksum_senderEvaluate (s := { s with txRcv := r }) (h hrole)
  · next hrole => exact expectsChecksum_of_rx (role_eq_rx_of_ne hrole)

theorem StepEffect.expectsChecksum {tr : Transaction} (he : StepEffect s tr u) (h : ExpectsChecksum s) :
    ExpectsChecksum u := by
  cases he with
  | reset => exact expectsChecksum_of_rx rfl
  | @chunk _ _ data => exact ExpectsChecksum.deliver (s := { s with frag := (split s.frag data).2 }) h _
  | chunkDropped => exact h
  | tick =>
    split
    · next hrole => exact (expectsChecksum_senderTick (h hrole)).monitorTick _
    · exact h.monitorTick _
  | relayed => exact h
  | notRelayed => exact h
  | sent => exact h.senderStart _
  | cancel => exact h.senderCancel
  | iofault =>
    split
    · exact expectsChecksum_reconnect s
    · exact h
  | @line l => exact h.deliver [l]
  | lineDropped => exact h

/-! ### The events behind a change of `PORT_OPEN` (R28, R105) -/

/-- From `s` to `u` the port keeps its state, or closes with a `CLOSE`, or opens with an `OPEN`. -/
def PortChange (s u : State) : Prop :=
  u.portOpen = s.portOpen ∨ (s.portOpen = true ∧ u.portOpen = false ∧ .close ∈ u.events) ∨
    (s.portOpen = false ∧ u.portOpen = true ∧ openEvent s.cfg ∈ u.events)

/-- An open loop that ends with the port open made an `OPEN` (R234). -/
theorem portChange_afterOpen (hclosed : s.portOpen = false) {n : Nat} {ok : Bool} (hn : ok = true → 1 ≤ n)
    (rest : List OpenOutcome) : PortChange s (afterOpen n ok rest s) := by
  cases ok with
  | false => exact .inl hclosed.symm
  | true =>
    have hne : n ≠ 0 := Nat.one_le_iff_ne_zero.1 (hn rfl)
    exact .inr (.inr ⟨hclosed, rfl, by simp [afterOpen, hne]⟩)

/-- A reconnect emits `CLOSE`, whatever its reopen does (R240). -/
theorem close_mem_afterOpen_beforeReopen (n : Nat) (ok : Bool) (rest : List OpenOutcome) (s : State) :
    .close ∈ (afterOpen n ok rest (beforeReopen s)).events := by
  rw [beforeReopen_eq]
  simp [afterOpen]

theorem portChange_afterOpen_beforeReopen (hopen : s.portOpen = true) (n : Nat) (ok : Bool)
    (rest : List OpenOutcome) : PortChange s (afterOpen n ok rest (beforeReopen s)) := by
  cases ok with
  | false => exact .inr (.inl ⟨hopen, rfl, close_mem_afterOpen_beforeReopen n false rest s⟩)
  | true => exact .inl hopen.symm

theorem portChange_reconnect (hopen : s.portOpen = true) : PortChange s (reconnect s) := by
  obtain ⟨n, ok, rest, -, -, e⟩ := reconnect_cases s
  rw [e]
  exact portChange_afterOpen_beforeReopen hopen n ok rest

theorem portChange_monitorTick (v : Levels) (s : State) : PortChange s (monitorTick v s) := by
  obtain ⟨p, i, -, -, e | ⟨hclosed, n, ok, rest, hn, e⟩ | ⟨hopen, n, ok, rest, -, e⟩ | ⟨-, e⟩⟩ := monitorTick_all v s
  · rw [e]
    exact .inl rfl
  · rw [e]
    exact portChange_afterOpen (s := { s with pollCnt := p, idleCnt := i }) hclosed hn rest
  · rw [e]
    exact portChange_afterOpen_beforeReopen (s := { s with pollCnt := p, idleCnt := i, snap := v }) hopen n ok rest
  · rw [e]
    exact .inl rfl

/-- No operation of the sender writes `PORT_OPEN` or the configuration. -/
theorem attemptFailed_port (s : State) :
    (attemptFailed s).portOpen = s.portOpen ∧ (attemptFailed s).cfg = s.cfg := by
  rcases attemptFailed_cases s with ⟨-, e⟩ | ⟨-, e⟩ <;> rw [e] <;> exact ⟨rfl, rfl⟩

theorem senderTick_port (s : State) : (senderTick s).portOpen = s.portOpen ∧ (senderTick s).cfg = s.cfg := by
  rcases senderTick_cases s with ⟨-, e⟩ | ⟨-, e⟩
  · rw [e]
    exact ⟨rfl, rfl⟩
  · rw [e]
    exact attemptFailed_port _

theorem senderStart_portOpen (m : Bytes) (s : State) : (senderStart m s).portOpen = s.portOpen := by
  unfold senderStart
  split <;> rfl

theorem senderCancel_portOpen (s : State) : (senderCancel s).portOpen = s.portOpen := by
  unfold senderCancel
  split <;> rfl

theorem endDelivery_portOpen (s : State) : (endDelivery s).portOpen = s.portOpen := by
  unfold endDelivery
  split
  · rcases senderEvaluate_cases s with ⟨-, e⟩ | ⟨-, e⟩ | ⟨-, e⟩
    · rw [e]
    · rw [e]
      rfl
    · rw [e]
      exact (attemptFailed_port s).left
  · rfl

theorem routeAll_portOpen (ls : List Bytes) (s : State) : (routeAll ls s).portOpen = s.portOpen := by
  obtain ⟨-, -, -, hport, -⟩ := routeAll_frame ls s
  exact hport

theorem portChange_tick (v : Levels) (s : State) :
    PortChange s (monitorTick v (if s.role = .txWait then senderTick s else s)) := by
  split
  · obtain ⟨hport, hcfg⟩ := senderTick_port s
    simpa only [PortChange, hport, hcfg] using portChange_monitorTick v (senderTick s)
  · exact portChange_monitorTick v s

theorem StepEffect.portChange {tr : Transaction} (he : StepEffect s tr u) :
    (∃ b o, tr = .command b o ∧ decodeCommand b o = .reset) ∨ PortChange s u := by
  cases he with
  | reset hd => exact .inl ⟨_, _, rfl, hd⟩
  | chunk => exact .inr (.inl ((endDelivery_portOpen _).trans (routeAll_portOpen _ _)))
  | chunkDropped => exact .inr (.inl rfl)
  | tick => exact .inr (portChange_tick _ s)
  | relayed => exact .inr (.inl rfl)
  | notRelayed => exact .inr (.inl rfl)
  | sent => exact .inr (.inl (senderStart_portOpen _ s))
  | cancel => exact .inr (.inl (senderCancel_portOpen s))
  | iofault =>
    split
    · next hopen => exact .inr (portChange_reconnect hopen)
    · exact .inr (.inl rfl)
  | @line l => exact .inr (.inl ((endDelivery_portOpen _).trans (routeAll_portOpen [l] s)))
  | lineDropped => exact .inr (.inl rfl)

theorem nextInstr_of_command {b : Byte} {o : Bytes} {os : List OpenOutcome} {rest : List Input}
    (hi : s.inputs = ⟨.command b o, os⟩ :: rest) : nextInstr s = some (decodeCommand b o) := by
  simp [nextInstr, hi, decode]

/-! ### The fields of STATUS (R37) -/

/-- The fields of STATUS, from the lowest: at its first bit each is the low end of what stands above the fields below
it. -/
theorem status_fields (s : State) :
    (status s).extractLsb' 0 2 = s.rxst.code ∧ (status s).extractLsb' 2 1 = s.role.code ∧
    (status s).extractLsb' 3 1 = BitVec.ofBool s.portOpen ∧ (status s).extractLsb' 4 4 = s.snap ∧
    (status s).extractLsb' 8 3 = iterField s.txIter ∧ (status s).extractLsb' 11 2 = s.txRcv.tag ∧
    (status s).extractLsb' 13 3 = 0#3 := by
  unfold status
  simp (disch := decide) only [BitVec.extractLsb'_append_eq_of_le]
  exact ⟨BitVec.extractLsb'_append_eq_right, BitVec.extractLsb'_append_eq_right, BitVec.extractLsb'_append_eq_right,
    BitVec.extractLsb'_append_eq_right, BitVec.extractLsb'_append_eq_right, BitVec.extractLsb'_append_eq_right, rfl⟩

theorem iterField_toNat {n : Nat} (h : n < 8) : (iterField n).toNat = n := by
  rw [iterField, if_pos h, BitVec.toNat_ofNat, Nat.mod_eq_of_lt h]

theorem RxState.eq_processing_of_code {r : RxState} (h : r.code = 2) : r = .processing := by
  cases r with
  | processing => rfl
  | _ => exact absurd h (by decide)

/-- Between operations nothing received is left over, with a session or without (R39 items 6 and 7). -/
theorem Invariants.txRcv_eq_none (h : Invariants s) : s.txRcv = .none := by
  cases hrole : s.role with
  | rx =>
    obtain ⟨-, -, -, hrcv, -⟩ := h.noSession hrole
    exact hrcv
  | txWait => exact h.consumed hrole

end Machine

/-- Settles O48: `step_cases` and the invariants of each effect; the queue, the oracle and the output list are in no
invariant. -/
theorem stepKeepsInvariant : Obligations.StepKeepsInvariant := by
  intro s t h hstep
  obtain ⟨hvalid, ⟨-, rfl⟩ | ⟨tr, os, rest, u, -, he, -, rfl⟩⟩ := step_cases hstep
  · exact { h with }
  · have hbegin : Invariants (beginOp os rest s) := { h with }
    have hend : Invariants u := he.invariants hvalid hbegin
    exact { hend with }

/-- Settles O49: the reset state is what RESET makes of itself. -/
theorem resetHasInvariant : Obligations.ResetHasInvariant :=
  invariants_resetRegisters State.reset (by decide)

/-- Settles O50, by the effects of a step. -/
theorem stepKeepsExpectedChecksum : Obligations.StepKeepsExpectedChecksum := by
  intro s t h hstep
  obtain ⟨-, ⟨-, rfl⟩ | ⟨tr, os, rest, u, -, he, -, rfl⟩⟩ := step_cases hstep
  · exact h
  · exact he.expectsChecksum h

/-- Settles O54, by the effects of a step. -/
theorem portChangesWithEvents : Obligations.PortChangesWithEvents := by
  intro s t hstep
  obtain ⟨-, ⟨-, rfl⟩ | ⟨tr, os, rest, u, hi, he, -, rfl⟩⟩ := step_cases hstep
  · exact .inl rfl
  · rcases he.portChange with ⟨b, o, rfl, hd⟩ | h | h
    · exact .inr (.inl (by rw [nextInstr_of_command hi, hd]))
    · exact .inl h
    · exact .inr (.inr h)

/-- Settles O42: each field is read at its place, a one-bit field as the bit. -/
theorem statusFields : Obligations.StatusFields := by
  intro s
  obtain ⟨hrxst, hrole, hport, hsnap, hiter, htag, hhigh⟩ := status_fields s
  refine ⟨hrxst, ?role, ?port, hsnap, fun hlt => ?iter, htag, hhigh, fun h => ⟨fun hcode => ?rxst, ?tag⟩⟩
  case role =>
    rw [BitVec.getLsbD_eq_extractLsb', hrole]
    cases s.role <;> rfl
  case port =>
    rw [BitVec.getLsbD_eq_extractLsb', hport]
    cases s.portOpen <;> rfl
  case iter => rw [hiter, iterField_toNat hlt]
  case rxst => exact h.notProcessing (RxState.eq_processing_of_code (hrxst ▸ hcode))
  case tag =>
    rw [htag, h.txRcv_eq_none]
    rfl

end Sys2Proof
end

section
/-! Proofs of the statements of 20_memory.md (R50 to R64): what a chunk does, that no step writes the configuration,
that every write stands in write mode, and that the lines and the fragment hold the inbound bytes. -/

namespace Sys2Proof

open Machine Claims

namespace Machine

variable {s t u : State}

/-! ### Chunks (R58, R107) -/

/-- Lines fed one after the other, each as the instruction of its class, are routed in that order. -/
theorem feed_eq_routeAll (ls : List Bytes) (s : State) : feed ls s = .next (routeAll ls s) := by
  induction ls generalizing s with
  | nil => rfl
  | cons l ls ih => simp only [feed, exec_classify, ih, routeAll_cons]

theorem exec_rxChunk_of_closed (h : s.portOpen = false) (data : Bytes) : exec (.rxChunk data) s = .next s := by
  simp [exec, execRxChunk, h]

theorem exec_rxChunk_of_open (h : s.portOpen = true) (data : Bytes) : exec (.rxChunk data) s =
    .next (endDelivery (routeAll (split s.frag data).1 { s with frag := (split s.frag data).2 })) := by
  simp [exec, execRxChunk, acceptChunk, h]

/-! ### Bracketed events (R61) -/

/-- A bracketed list ends outside write mode, where the next one begins. -/
theorem bracketed_append {mode : Bool} {es fs : List Event} (hes : bracketed mode es = true)
    (hfs : bracketed false fs = true) : bracketed mode (es ++ fs) = true := by
  fun_induction bracketed mode es with
  | case1 mode =>
    have hmode : mode = false := by simpa using hes
    rw [hmode]
    exact hfs
  | _ =>
    simp only [List.cons_append, bracketed, Bool.and_eq_true] at hes ⊢
    tauto

/-- Repetitions of an event that a mode lets through leave what follows to be checked in that mode. -/
theorem bracketed_replicate_append {mode : Bool} {e : Event}
    (he : ∀ es, bracketed mode (e :: es) = bracketed mode es) (n : Nat) (es : List Event) :
    bracketed mode (List.replicate n e ++ es) = bracketed mode es := by
  induction n with
  | zero => rfl
  | succ n ih => rw [List.replicate_succ, List.cons_append, he, ih]

theorem bracketed_lineEvent (c : Config) (t : Bytes) (es : List Event) :
    bracketed true (lineEvent c t :: es) = bracketed true es := rfl

theorem bracketed_openEvent (c : Config) (es : List Event) :
    bracketed false (openEvent c :: es) = bracketed false es := rfl

/-- The events of one attempt (R193). -/
theorem bracketed_attemptEvents (c : Config) (m : Bytes) : bracketed false (attemptEvents c m) = true := by
  rw [attemptEvents, List.append_assoc]
  exact bracketed_replicate_append (bracketed_lineEvent c c.tokEtx) c.nPreEtx
    [lineEvent c c.tokStx, .write (m ++ c.eol), lineEvent c c.tokEtx, .modeRead]

/-- The events at the end of a send (R199). -/
theorem bracketed_burstEvents (c : Config) : bracketed false (burstEvents c) = true := by
  rw [burstEvents, List.append_assoc]
  exact bracketed_replicate_append (bracketed_lineEvent c c.tokAck) c.nPostAck [.modeRead]

/-- The events of an open loop (R234). -/
theorem bracketed_openLoopEvents (c : Config) (n : Nat) (ok : Bool) :
    bracketed false (List.replicate n (openEvent c) ++ if ok then [.purge, .modeRead] else []) = true := by
  rw [bracketed_replicate_append (bracketed_openEvent c)]
  cases ok <;> rfl

/-! ### What every operation keeps

One relation for the three statements about steps: it is proved once of each shared operation, and composes. -/

/-- From `s` to `u` the configuration and the queue stay as they are, the output grows by events that keep every write
bracketed, and the fragment stays as it is unless one of them is a `PURGE`. -/
structure Advances (s u : State) : Prop where
  cfg : u.cfg = s.cfg
  inputs : u.inputs = s.inputs
  output : ∃ es, u.events = s.events ++ es ∧ bracketed false es = true ∧ (.purge ∈ es ∨ u.frag = s.frag)

/-- An operation that emits nothing and leaves the fragment. -/
theorem advances_of_silent (hcfg : u.cfg = s.cfg) (hinputs : u.inputs = s.inputs) (hevents : u.events = s.events)
    (hfrag : u.frag = s.frag) : Advances s u :=
  ⟨hcfg, hinputs, [], by rw [hevents, List.append_nil], rfl, .inr hfrag⟩

theorem Advances.refl (s : State) : Advances s s := advances_of_silent rfl rfl rfl rfl

theorem Advances.trans (h : Advances s t) (h' : Advances t u) : Advances s u := by
  obtain ⟨hcfg, hinputs, es, hes, hb, hfrag⟩ := h
  obtain ⟨hcfg', hinputs', es', hes', hb', hfrag'⟩ := h'
  refine ⟨hcfg'.trans hcfg, hinputs'.trans hinputs, es ++ es', ?_, bracketed_append hb hb', ?_⟩
  · rw [hes', hes, List.append_assoc]
  · rcases hfrag with hp | hfrag
    · exact .inl (List.mem_append_left _ hp)
    · exact hfrag'.imp (List.mem_append_right _) (·.trans hfrag)

theorem advances_emits {es : List Event} (hb : bracketed false es = true) (s : State) : Advances s (emits es s) :=
  ⟨rfl, rfl, es, rfl, hb, .inr rfl⟩

/-! ### The sender -/

theorem advances_startAttempt (s : State) : Advances s (startAttempt s) :=
  ⟨rfl, rfl, attemptEvents s.cfg s.txMsg, rfl, bracketed_attemptEvents _ _, .inl (by simp [attemptEvents])⟩

theorem advances_finish (ok : Bool) (s : State) : Advances s (finish ok s) := by
  rw [finish_eq]
  exact ⟨rfl, rfl, burstEvents s.cfg ++ [.sendDone ok], rfl, bracketed_append (bracketed_burstEvents _) rfl,
    .inr rfl⟩

theorem advances_attemptFailed (s : State) : Advances s (attemptFailed s) := by
  rcases attemptFailed_cases s with ⟨-, e⟩ | ⟨-, e⟩
  · rw [e]
    exact advances_startAttempt s
  · rw [e]
    exact advances_finish false s

theorem advances_endDelivery (s : State) : Advances s (endDelivery s) := by
  unfold endDelivery
  split
  · rcases senderEvaluate_cases s with ⟨-, e⟩ | ⟨-, e⟩ | ⟨-, e⟩
    · rw [e]
      exact .refl s
    · rw [e]
      exact advances_finish true s
    · rw [e]
      exact advances_attemptFailed s
  · exact .refl s

theorem advances_senderTick (s : State) : Advances s (senderTick s) := by
  have hcount : Advances s { s with txWaitCnt := s.txWaitCnt + 1 } := advances_of_silent rfl rfl rfl rfl
  rcases senderTick_cases s with ⟨-, e⟩ | ⟨-, e⟩
  · rw [e]
    exact hcount
  · rw [e]
    exact hcount.trans (advances_attemptFailed _)

theorem advances_senderStart (message : Bytes) (s : State) : Advances s (senderStart message s) := by
  unfold senderStart
  split
  · have htake : Advances s { s with txMsg := message, txExp := crc32 (stripSep message), txIter := 0 } :=
      advances_of_silent rfl rfl rfl rfl
    exact htake.trans (advances_startAttempt _)
  · exact advances_emits rfl s

theorem advances_senderCancel (s : State) : Advances s (senderCancel s) := by
  unfold senderCancel
  split
  · exact advances_finish false s
  · exact .refl s

/-! ### The monitor -/

theorem advances_afterOpen (n : Nat) (ok : Bool) (rest : List OpenOutcome) (s : State) :
    Advances s (afterOpen n ok rest s) := by
  refine ⟨rfl, rfl, _, rfl, bracketed_openLoopEvents s.cfg n ok, ?_⟩
  cases ok with
  | true => exact .inl (by simp)
  | false => exact .inr rfl

theorem advances_beforeReopen (s : State) : Advances s (beforeReopen s) := by
  rw [beforeReopen_eq]
  refine ⟨rfl, rfl, _, rfl, ?_, .inl (by simp)⟩
  split <;> rfl

theorem advances_reconnect (s : State) : Advances s (reconnect s) := by
  obtain ⟨n, ok, rest, -, -, e⟩ := reconnect_cases s
  rw [e]
  exact (advances_beforeReopen s).trans (advances_afterOpen n ok rest _)

theorem advances_monitorTick (v : Levels) (s : State) : Advances s (monitorTick v s) := by
  obtain ⟨p, i, -, -, hcases⟩ := monitorTick_all v s
  have hcount (w : Levels) : Advances s { s with pollCnt := p, idleCnt := i, snap := w } :=
    advances_of_silent rfl rfl rfl rfl
  rcases hcases with e | ⟨-, n, ok, rest, -, e⟩ | ⟨-, n, ok, rest, -, e⟩ | ⟨-, e⟩
  · rw [e]
    exact hcount s.snap
  · rw [e]
    exact (hcount s.snap).trans (advances_afterOpen n ok rest _)
  · rw [e]
    exact ((hcount v).trans (advances_beforeReopen _)).trans (advances_afterOpen n ok rest _)
  · rw [e]
    exact hcount v

/-! ### The lines of a delivery -/

theorem advances_setRxst (r : RxState) (s : State) : Advances s (setRxst r s) :=
  advances_of_silent (setRxst_cfg r s) (setRxst_inputs r s) (setRxst_events r s) (setRxst_frag r s)

theorem advances_receiverWrite (l : Bytes) (s : State) : Advances s (receiverWrite l s) := advances_emits rfl s

theorem advances_processing (s : State) : Advances s (processing s) :=
  (advances_receiverWrite _ s).trans (advances_setRxst .waiting _)

theorem advances_clearFrame (s : State) : Advances s (clearFrame s) := advances_of_silent rfl rfl rfl rfl

theorem advances_endFrame (s : State) : Advances s (endFrame s) :=
  (advances_clearFrame s).trans (advances_setRxst .idle _)

theorem LineStep.advances (h : LineStep s u) : Advances s u := by
  cases h with
  | ignored => exact .refl s
  | begun => exact (advances_clearFrame s).trans (advances_setRxst .receiving _)
  | appended => exact advances_of_silent rfl rfl rfl rfl
  | acknowledged => exact (advances_setRxst .processing s).trans (advances_processing _)
  | announced => exact advances_receiverWrite _ s
  | delivered => exact (advances_emits rfl s).trans (advances_endFrame _)
  | aborted => exact advances_endFrame s
  | received => exact advances_of_silent rfl rfl rfl rfl

theorem leaveProcessing_rxst_ne (s : State) : (leaveProcessing s).rxst ≠ .processing := by
  unfold leaveProcessing
  split
  · simp [processing]
  · assumption

theorem advances_leaveProcessing (s : State) : Advances s (leaveProcessing s) := by
  unfold leaveProcessing
  split
  · exact advances_processing s
  · exact .refl s

@[simp] theorem leaveProcessing_cfg (s : State) : (leaveProcessing s).cfg = s.cfg := (advances_leaveProcessing s).cfg

@[simp] theorem leaveProcessing_role (s : State) : (leaveProcessing s).role = s.role := by
  unfold leaveProcessing
  split
  · simp [processing]
  · rfl

/-- To the receiver a line comes as if PROCESSING had been left before it (R24; log entry 10). -/
theorem route_leaveProcessing (hrole : s.role = .rx) (l : Bytes) : route l s = route l (leaveProcessing s) := by
  have hidem := leaveProcessing_of_ne (leaveProcessing_rxst_ne s)
  rcases classify_cases s.cfg l with h | h | h | h | ⟨v, h⟩ | h <;>
    simp [route, h, hrole, routeStx, routeEtx, routeEnq, routeAck, routeAckv, routeOther, receiveStx, receiveEtx,
      receiveEnq, receiveAck, receiveOther, hidem]

theorem advances_route (l : Bytes) (s : State) : Advances s (route l s) := by
  cases hrole : s.role with
  | rx =>
    obtain ⟨hstep, -⟩ := route_cases l (leaveProcessing_rxst_ne s)
    rw [route_leaveProcessing hrole]
    exact (advances_leaveProcessing s).trans hstep.advances
  | txWait =>
    obtain ⟨r, e⟩ := route_of_txWait hrole l
    rw [e]
    exact advances_of_silent rfl rfl rfl rfl

theorem advances_routeAll (ls : List Bytes) (s : State) : Advances s (routeAll ls s) := by
  induction ls generalizing s with
  | nil => exact .refl s
  | cons l ls ih => exact (advances_route l s).trans (ih _)

theorem advances_deliver (ls : List Bytes) (s : State) : Advances s (endDelivery (routeAll ls s)) :=
  (advances_routeAll ls s).trans (advances_endDelivery _)

/-! ### Steps -/

/-- The chunk a transaction gives to the Line Splitter; on a closed port there is none (R107). -/
def chunkOf (portOpen : Bool) : Transaction → Option Bytes
  | .command b operand =>
    match decodeCommand b operand with
    | .rxChunk data => if portOpen then some data else none
    | _ => none
  | .line _ => none

/-- The chunk of an accepted step is the one its transaction gives (R51). -/
theorem StepRecord.chunk_accepted {tr : Transaction} {os : List OpenOutcome} {rest : List Input}
    (hi : s.inputs = ⟨tr, os⟩ :: rest) (es : List Event) :
    StepRecord.chunk ⟨s, .accepted es⟩ = chunkOf s.portOpen tr := by
  cases tr with
  | command b o =>
    simp only [StepRecord.chunk, hi]
    rfl
  | line l => simp only [StepRecord.chunk, hi, chunkOf]

/-- The fragment after the splitter was given a chunk, or none. -/
def fragAfter (frag : Bytes) : Option Bytes → Bytes
  | some data => (split frag data).2
  | none => frag

/-- The transaction is a RESET, or `frag` is the fragment the splitter makes of it. -/
def SplitUnlessReset (s : State) (tr : Transaction) (frag : Bytes) : Prop :=
  (∃ b o, tr = .command b o ∧ decodeCommand b o = .reset) ∨ frag = fragAfter s.frag (chunkOf s.portOpen tr)

/-- Every instruction writes the fragment first, if at all, and advances from there (R101, R107). -/
theorem StepEffect.advances {tr : Transaction} (he : StepEffect s tr u) :
    ∃ frag, Advances { s with frag := frag } u ∧ SplitUnlessReset s tr frag := by
  have hkeep (hadv : Advances s u) (hnone : chunkOf s.portOpen tr = none) :
      ∃ frag, Advances { s with frag := frag } u ∧ SplitUnlessReset s tr frag :=
    ⟨s.frag, hadv, .inr (by rw [hnone]; rfl)⟩
  cases he with
  | reset hd => exact ⟨[], advances_of_silent rfl rfl rfl rfl, .inl ⟨_, _, rfl, hd⟩⟩
  | @chunk _ _ data hd hopen =>
    exact ⟨(split s.frag data).2, advances_deliver _ _, .inr (by simp [chunkOf, hd, hopen, fragAfter])⟩
  | chunkDropped hd hclosed => exact hkeep (.refl s) (by simp [chunkOf, hd, hclosed])
  | tick hd =>
    refine hkeep ?_ (by simp [chunkOf, hd])
    split
    · exact (advances_senderTick s).trans (advances_monitorTick _ _)
    · exact advances_monitorTick _ s
  | relayed k a hd hi =>
    refine hkeep (advances_emits rfl s) ?_
    rcases hi with rfl | rfl | rfl | rfl | rfl | rfl <;> simp [chunkOf, hd]
  | notRelayed a hd hi =>
    refine hkeep (.refl s) ?_
    rcases hi with rfl | rfl | rfl | rfl | rfl | rfl <;> simp [chunkOf, hd]
  | sent hd => exact hkeep (advances_senderStart _ s) (by simp [chunkOf, hd])
  | cancel hd => exact hkeep (advances_senderCancel s) (by simp [chunkOf, hd])
  | iofault hd =>
    refine hkeep ?_ (by simp [chunkOf, hd])
    split
    · exact advances_reconnect s
    · exact .refl s
  | @line l => exact hkeep (advances_deliver [l] s) rfl
  | lineDropped => exact hkeep (.refl s) rfl

/-- What every step keeps: the configuration, the rest of the queue, write mode, and but for RESET and PURGE the
fragment the splitter has written (R61, R64, R137). -/
theorem step_advances (h : step s = .next t) :
    t.cfg = s.cfg ∧ t.inputs = s.inputs.tail ∧ bracketed false t.events = true ∧
      (nextInstr s = some .reset ∨ .purge ∈ t.events ∨
        t.frag = fragAfter s.frag (StepRecord.chunk ⟨s, .accepted t.events⟩)) := by
  obtain ⟨-, ⟨hi, rfl⟩ | ⟨tr, os, rest, u, hi, he, -, rfl⟩⟩ := step_cases h
  · exact ⟨rfl, by simp [hi], rfl, .inr (.inr (by simp [StepRecord.chunk, hi, fragAfter]))⟩
  · obtain ⟨frag, ⟨hcfg, hinputs, es, hes, hb, hfrag⟩, hwritten⟩ := he.advances
    have hes : u.events = es := hes
    refine ⟨hcfg, by simp [hinputs, hi], hes ▸ hb, ?_⟩
    rcases hwritten with ⟨b, o, rfl, hd⟩ | rfl
    · exact .inl (by rw [nextInstr_of_command hi, hd])
    · rw [StepRecord.chunk_accepted hi]
      exact .inr (hfrag.imp (hes ▸ ·) id)

/-! ### The inbound bytes of a run (R136, R137) -/

/-- The splitter loses no byte and adds none: the lines of a step and the fragment after it are the fragment before it
and the chunk without its separators. -/
theorem StepRecord.lines_flatten_append_fragAfter (x : StepRecord) :
    x.lines.flatten ++ fragAfter x.before.frag x.chunk = x.before.frag ++ stripSep (x.chunk.getD []) := by
  unfold StepRecord.lines
  cases x.chunk with
  | none => simp [fragAfter]
  | some data => exact split_flatten _ data

/-- A step that neither purges nor resets. -/
def StepRecord.Undisturbed (x : StepRecord) : Prop := .purge ∉ x.verdict.events ∧ nextInstr x.before ≠ some .reset

/-- A step of a run adds one record; undisturbed, it writes the fragment as the splitter does. -/
theorem Run.advance_record (r : Run) : ∃ x : StepRecord, r.advance.trace = r.trace ++ [x] ∧ x.before = r.state ∧
    (x.Undisturbed → r.advance.state.frag = fragAfter r.state.frag x.chunk) := by
  cases h : step r.state with
  | next t =>
    rw [Run.advance_of_next h]
    refine ⟨_, rfl, rfl, fun ⟨hpurge, hreset⟩ => ?_⟩
    obtain ⟨-, -, -, hr | hp | hfrag⟩ := step_advances h
    · exact absurd hr hreset
    · exact absurd hp hpurge
    · exact hfrag
  | refused q =>
    rw [Run.advance_of_refused h]
    exact ⟨_, rfl, rfl, fun _ => rfl⟩
  | fault q => cases q

/-- While no step of a run was disturbed, its lines and the fragment hold the inbound bytes. -/
def Run.KeepsBytes (r : Run) : Prop :=
  (∀ x ∈ r.trace, x.Undisturbed) → r.lineStream.flatten ++ r.state.frag = stripSep r.inbound

theorem Run.keepsBytes_start (h : s.frag = []) : (Run.start s).KeepsBytes := fun _ => h

theorem Run.KeepsBytes.advance {r : Run} (hr : r.KeepsBytes) : r.advance.KeepsBytes := by
  intro hall
  obtain ⟨x, htrace, hbefore, hfrag⟩ := r.advance_record
  rw [htrace, List.forall_mem_append, List.forall_mem_singleton] at hall
  obtain ⟨hpast, hx⟩ := hall
  have hlines : r.advance.lineStream = r.lineStream ++ x.lines := by simp [Run.lineStream, htrace]
  have hinbound : r.advance.inbound = r.inbound ++ x.chunk.getD [] := by simp [Run.inbound, htrace]
  calc r.advance.lineStream.flatten ++ r.advance.state.frag
      = r.lineStream.flatten ++ (x.lines.flatten ++ fragAfter x.before.frag x.chunk) := by
        rw [hlines, hfrag hx, hbefore, List.flatten_append, List.append_assoc]
    _ = (r.lineStream.flatten ++ r.state.frag) ++ stripSep (x.chunk.getD []) := by
        rw [x.lines_flatten_append_fragAfter, hbefore, List.append_assoc]
    _ = stripSep r.advance.inbound := by rw [hr hpast, hinbound, stripSep_append]

theorem Run.KeepsBytes.advanceN (n : Nat) {r : Run} (hr : r.KeepsBytes) : (Run.advanceN n r).KeepsBytes := by
  induction n generalizing r with
  | zero => exact hr
  | succ n ih => exact ih hr.advance

end Machine

/-- Settles O25: the lines of a chunk are fed in order, and what ends a delivery follows. -/
theorem rxChunkEffect : Obligations.RxChunkEffect := by
  intro s data
  refine ⟨fun hclosed => exec_rxChunk_of_closed hclosed data, fun hopen => ?_⟩
  obtain ⟨-, hrole, -⟩ := routeAll_frame (split s.frag data).1 { s with frag := (split s.frag data).2 }
  refine ⟨_, feed_eq_routeAll _ _, hrole, ?_⟩
  rw [exec_rxChunk_of_open hopen, endDelivery_eq, hrole]

/-- Settles O47, by what every step keeps. -/
theorem configurationFixed : Obligations.ConfigurationFixed := by
  intro s t hstep
  obtain ⟨hcfg, hinputs, -⟩ := step_advances hstep
  exact ⟨hcfg, hinputs⟩

/-- Settles O52, by what every step keeps. -/
theorem writesBracketed : Obligations.WritesBracketed := by
  intro s t hstep
  obtain ⟨-, -, hb, -⟩ := step_advances hstep
  exact hb

/-- Settles O57: the bytes are kept by every step of a run, so by the run. -/
theorem inboundBytesKept : Obligations.InboundBytesKept :=
  fun n _ hfrag => (Run.keepsBytes_start hfrag).advanceN n

end Sys2Proof
end

section
/-! Proofs of the statements of 30_encoding.md (R70 to R86): the fields of a command byte, the rows of the commands,
the classes of a line, and the round trips through the decoder and the encoder. -/

namespace Sys2Proof

open Machine Claims

/-! ### The fields of a command byte (R79) -/

@[simp] theorem opField_commandByte (op imm : BitVec 4) : opField (commandByte op imm) = op :=
  BitVec.extractLsb'_append_eq_left

@[simp] theorem immField_commandByte (op imm : BitVec 4) : immField (commandByte op imm) = imm :=
  BitVec.extractLsb'_append_eq_right

@[simp] theorem commandByte_opField_immField (b : Byte) : commandByte (opField b) (immField b) = b :=
  BitVec.extractLsb'_append_extractLsb'

theorem commandByte_eq_iff (op imm : BitVec 4) (b : Byte) :
    commandByte op imm = b ↔ op = opField b ∧ imm = immField b := by
  constructor
  · rintro rfl; simp
  · rintro ⟨rfl, rfl⟩; simp

theorem opField_toNat (b : Byte) : (opField b).toNat = b.toNat / 16 := by
  simp only [opField, BitVec.extractLsb'_toNat, Nat.shiftRight_eq_div_pow]
  omega

theorem immField_toNat (b : Byte) : (immField b).toNat = b.toNat % 16 := by simp [immField]

/-! ### The immediate of SIGNAL (R81, R82) -/

/-- The instruction of a signal kind and a level: the six SIGNAL rows. -/
def SignalKind.instr : SignalKind → Bool → Instr
  | .breakSignal => .signalBreak
  | .clearToSend => .signalClearToSend
  | .dataSetReady => .signalDataSetReady
  | .error => .signalError
  | .ring => .signalRing
  | .rlsd => .signalRlsd

@[simp] theorem encode_signalInstr (k : SignalKind) (a : Bool) : encode (k.instr a) = .command (signalByte k a) [] := by
  cases k <;> rfl

theorem decodeSignal_code (k : SignalKind) (a : Bool) : decodeSignal (k.code ++ BitVec.ofBool a) = k.instr a := by
  cases k <;> cases a <;> rfl

theorem decodeSignal_reserved : ∀ low : BitVec 2, decodeSignal (3#2 ++ low) = .reservedSignalKind low := by decide

theorem signalImm_eq_append : ∀ imm : BitVec 4, imm.extractLsb' 1 3 ++ BitVec.ofBool (imm.getLsbD 0) = imm := by
  decide

/-- The kinds 6 and 7 are the immediates whose two high bits are set. -/
theorem signalImm_eq_append_of_reserved :
    ∀ imm : BitVec 4, 6 ≤ (imm.extractLsb' 1 3).toNat → 3#2 ++ imm.extractLsb' 0 2 = imm := by decide

/-- A kind below 6 has a name. -/
theorem exists_code_eq : ∀ kind : BitVec 3, kind.toNat < 6 → ∃ k : SignalKind, k.code = kind
  | 0, _ => ⟨.breakSignal, rfl⟩
  | 1, _ => ⟨.clearToSend, rfl⟩
  | 2, _ => ⟨.dataSetReady, rfl⟩
  | 3, _ => ⟨.error, rfl⟩
  | 4, _ => ⟨.ring, rfl⟩
  | 5, _ => ⟨.rlsd, rfl⟩

/-- Every immediate of SIGNAL is a kind with a level, or reserved. -/
theorem signalImm_cases (imm : BitVec 4) :
    (∃ (k : SignalKind) (a : Bool), imm = k.code ++ BitVec.ofBool a) ∨ ∃ low : BitVec 2, imm = 3#2 ++ low := by
  by_cases h : (imm.extractLsb' 1 3).toNat < 6
  · obtain ⟨k, hk⟩ := exists_code_eq _ h
    exact .inl ⟨k, imm.getLsbD 0, by rw [hk, signalImm_eq_append]⟩
  · exact .inr ⟨_, (signalImm_eq_append_of_reserved imm (Nat.le_of_not_lt h)).symm⟩

/-! ### The rows of the commands (R80 to R85) -/

/-- What the fields `op` and `imm` with an attached string stand for, row by row. -/
inductive CommandRow (operand : Bytes) : BitVec 4 → BitVec 4 → Instr → Prop
  | reset : CommandRow operand 0 0 .reset
  | rxChunk : CommandRow operand 1 0 (.rxChunk operand)
  | tick (levels : Levels) : CommandRow operand 2 levels (.tick levels)
  | signal (k : SignalKind) (a : Bool) : CommandRow operand 3 (k.code ++ BitVec.ofBool a) (k.instr a)
  | send : CommandRow operand 4 0 (.send operand)
  | cancel : CommandRow operand 5 0 .cancel
  | iofault : CommandRow operand 6 0 .iofault
  | reservedSignalKind (low : BitVec 2) : CommandRow operand 3 (3#2 ++ low) (.reservedSignalKind low)
  | reservedImm {op imm : BitVec 4} : op.toNat ∈ [0, 1, 4, 5, 6] → imm ≠ 0#4 →
      CommandRow operand op imm (.reservedImm op imm)
  | reservedOp {op : BitVec 4} (imm : BitVec 4) : 7 ≤ op.toNat → CommandRow operand op imm (.reservedOp op imm)

theorem commandRow_withoutImm {operand : Bytes} {op : BitVec 4} {i : Instr} (hop : op.toNat ∈ [0, 1, 4, 5, 6])
    (h : CommandRow operand op 0 i) (imm : BitVec 4) : CommandRow operand op imm (withoutImm op imm i) := by
  unfold withoutImm
  split
  · next himm => rwa [himm]
  · next himm => exact .reservedImm hop himm

theorem commandRow_decodeSignal (operand : Bytes) (imm : BitVec 4) : CommandRow operand 3 imm (decodeSignal imm) := by
  obtain ⟨k, a, rfl⟩ | ⟨low, rfl⟩ := signalImm_cases imm
  · rw [decodeSignal_code]; exact .signal k a
  · rw [decodeSignal_reserved]; exact .reservedSignalKind low

/-- Every command byte is read as a row of the table says. -/
theorem commandRow_decodeCommand (b : Byte) (operand : Bytes) :
    CommandRow operand (opField b) (immField b) (decodeCommand b operand) := by
  unfold decodeCommand
  generalize immField b = imm
  generalize opField b = op
  dsimp only
  split
  · next hop =>
    obtain rfl : op = 0 := BitVec.eq_of_toNat_eq hop
    exact commandRow_withoutImm (by decide) .reset imm
  · next hop =>
    obtain rfl : op = 1 := BitVec.eq_of_toNat_eq hop
    exact commandRow_withoutImm (by decide) .rxChunk imm
  · next hop =>
    obtain rfl : op = 2 := BitVec.eq_of_toNat_eq hop
    exact .tick imm
  · next hop =>
    obtain rfl : op = 3 := BitVec.eq_of_toNat_eq hop
    exact commandRow_decodeSignal operand imm
  · next hop =>
    obtain rfl : op = 4 := BitVec.eq_of_toNat_eq hop
    exact commandRow_withoutImm (by decide) .send imm
  · next hop =>
    obtain rfl : op = 5 := BitVec.eq_of_toNat_eq hop
    exact commandRow_withoutImm (by decide) .cancel imm
  · next hop =>
    obtain rfl : op = 6 := BitVec.eq_of_toNat_eq hop
    exact commandRow_withoutImm (by decide) .iofault imm
  · simp only [imp_false] at *
    exact .reservedOp imm (by omega)

namespace CommandRow

variable {operand : Bytes} {op imm : BitVec 4} {i : Instr}

/-- The decoder reads each row as the table says: the converse of `commandRow_decodeCommand`. -/
theorem decodeCommand_eq (h : CommandRow operand op imm i) : decodeCommand (commandByte op imm) operand = i := by
  cases h with
  | reset | rxChunk | send | cancel | iofault => rfl
  | tick => simp [decodeCommand]
  | signal k a => simp [decodeCommand, decodeSignal_code]
  | reservedSignalKind low => simp [decodeCommand, decodeSignal_reserved]
  | reservedImm hop himm =>
    simp only [List.mem_cons, List.not_mem_nil, or_false] at hop
    rcases hop with hop | hop | hop | hop | hop <;> simp [decodeCommand, hop, withoutImm, himm]
  | reservedOp _ hop =>
    simp only [decodeCommand, opField_commandByte, immField_commandByte]
    split
    iterate 7 · omega
    · rfl

theorem wellFormed (h : CommandRow operand op imm i) (c : Config) : WellFormed c i = true := by
  cases h with
  | reset | rxChunk | tick | send | cancel | iofault | reservedSignalKind => rfl
  | signal k => cases k <;> rfl
  | reservedImm hop himm => simpa [WellFormed, himm] using hop
  | reservedOp _ hop => simpa [WellFormed] using hop

/-- The encoder gives the fields back, and the string of RX_CHUNK and SEND. -/
theorem encode_eq (h : CommandRow operand op imm i) : encode i = .command (commandByte op imm)
    (if commandByte op imm = 0x10#8 ∨ commandByte op imm = 0x40#8 then operand else []) := by
  have hchunk : commandByte op imm = 0x10#8 ↔ op = 1#4 ∧ imm = 0#4 := commandByte_eq_iff op imm _
  have hsend : commandByte op imm = 0x40#8 ↔ op = 4#4 ∧ imm = 0#4 := commandByte_eq_iff op imm _
  simp only [hchunk, hsend]
  cases h with
  | reset | rxChunk | tick | send | cancel | iofault | reservedSignalKind => rfl
  | signal => simp [signalByte]
  | reservedImm _ himm => simp [himm, encode]
  | reservedOp _ hop =>
    have h1 : op ≠ 1#4 := by rintro rfl; simp at hop
    have h4 : op ≠ 4#4 := by rintro rfl; simp at hop
    simp [h1, h4, encode]

end CommandRow

/-- A well-formed instruction whose transaction is a command stands in the table. -/
theorem exists_commandRow {c : Config} {i : Instr} {b : Byte} {operand : Bytes} (hi : WellFormed c i = true)
    (he : encode i = .command b operand) : ∃ op imm, b = commandByte op imm ∧ CommandRow operand op imm i := by
  cases i with
  | lineStx | lineEtx | lineEnq | lineAck | lineAckv | lineOther => cases he
  | reset => cases he; exact ⟨_, _, rfl, .reset⟩
  | rxChunk => cases he; exact ⟨_, _, rfl, .rxChunk⟩
  | tick v => cases he; exact ⟨_, _, rfl, .tick v⟩
  | signalBreak a => cases he; exact ⟨_, _, rfl, .signal .breakSignal a⟩
  | signalClearToSend a => cases he; exact ⟨_, _, rfl, .signal .clearToSend a⟩
  | signalDataSetReady a => cases he; exact ⟨_, _, rfl, .signal .dataSetReady a⟩
  | signalError a => cases he; exact ⟨_, _, rfl, .signal .error a⟩
  | signalRing a => cases he; exact ⟨_, _, rfl, .signal .ring a⟩
  | signalRlsd a => cases he; exact ⟨_, _, rfl, .signal .rlsd a⟩
  | send => cases he; exact ⟨_, _, rfl, .send⟩
  | cancel => cases he; exact ⟨_, _, rfl, .cancel⟩
  | iofault => cases he; exact ⟨_, _, rfl, .iofault⟩
  | reservedSignalKind low => cases he; exact ⟨_, _, rfl, .reservedSignalKind low⟩
  | reservedImm op imm =>
    cases he
    simp only [WellFormed, Bool.and_eq_true, List.contains_iff_mem, bne_iff_ne] at hi
    obtain ⟨hop, himm⟩ := hi
    exact ⟨_, _, rfl, .reservedImm hop himm⟩
  | reservedOp op imm => cases he; exact ⟨_, _, rfl, .reservedOp imm (of_decide_eq_true hi)⟩

/-! ### The class of a line (R71) -/

theorem trimsTo_iff {tok l : Bytes} : trimsTo tok l = true ↔ isLine l = true ∧ trim l = tok := by simp [trimsTo]

theorem encode_eq_line {i : Instr} {l : Bytes} (h : encode i = .line l) :
    i = .lineStx l ∨ i = .lineEtx l ∨ i = .lineEnq l ∨ i = .lineAck l ∨ (∃ v, i = .lineAckv l v) ∨
      i = .lineOther l := by
  cases i <;> cases h <;> simp

theorem encode_classify (c : Config) (l : Bytes) : encode (classify c l) = .line l := by
  obtain h | h | h | h | ⟨v, h⟩ | h := classify_cases c l <;> rw [h] <;> rfl

theorem isSome_lineClass_classify (c : Config) (l : Bytes) : (lineClass (classify c l)).isSome = true := by
  obtain h | h | h | h | ⟨v, h⟩ | h := classify_cases c l <;> rw [h] <;> rfl

theorem isLine_of_wellFormed {c : Config} {i : Instr} {l : Bytes} (hi : WellFormed c i = true)
    (he : encode i = .line l) : isLine l = true := by
  obtain rfl | rfl | rfl | rfl | ⟨v, rfl⟩ | rfl := encode_eq_line he <;>
    simp only [WellFormed, trimsTo_iff, Bool.and_eq_true, and_assoc] at hi <;> exact hi.1

/-- The class that the tests of R71 find is one whose own test holds. -/
theorem wellFormed_classify (c : Config) {l : Bytes} (hl : isLine l = true) : WellFormed c (classify c l) = true := by
  unfold classify
  dsimp only
  split
  · next ht => exact trimsTo_iff.2 ⟨hl, ht⟩
  split
  · next ht => exact trimsTo_iff.2 ⟨hl, ht⟩
  split
  · next ht => exact trimsTo_iff.2 ⟨hl, ht⟩
  split
  · next ht => exact trimsTo_iff.2 ⟨hl, ht⟩
  split
  · next hv => simp [WellFormed, hl, afterPrefix_eq_some.1 hv]
  · next hstx hetx henq hack _ hv => simp [WellFormed, hl, hstx, hetx, henq, hack, hv]

/-- No token is an acknowledgement with checksum (R8). -/
theorem ackPrefix_append_ne_token {c : Config} (hc : configValid c = true) (v : Bytes) :
    ∀ t ∈ [c.tokStx, c.tokEtx, c.tokEnq, c.tokAck], ackPrefix c ++ v ≠ t := by
  obtain ⟨-, -, -, -, -, -, -, hprefix, -⟩ := (configValid_iff c).1 hc
  have hothers : ∀ t ∈ [c.tokStx, c.tokEtx, c.tokEnq], ackPrefix c ++ v ≠ t := fun t ht h => hprefix t ht ⟨v, h⟩
  have hack : ackPrefix c ++ v ≠ c.tokAck := by simp [ackPrefix]
  simp only [List.forall_mem_cons] at hothers ⊢
  obtain ⟨hstx, hetx, henq, hnil⟩ := hothers
  exact ⟨hstx, hetx, henq, hack, hnil⟩

/-- The tests of R71 exclude each other, so the class whose own test holds is the one they find. -/
theorem classify_of_wellFormed {c : Config} {i : Instr} {l : Bytes} (hc : configValid c = true)
    (hi : WellFormed c i = true) (he : encode i = .line l) : classify c l = i := by
  obtain ⟨-, hse, hsq, hsa, heq, hea, hqa, -⟩ := (configValid_iff c).1 hc
  obtain rfl | rfl | rfl | rfl | ⟨v, rfl⟩ | rfl := encode_eq_line he <;>
    simp only [WellFormed, trimsTo_iff, Bool.and_eq_true, beq_iff_eq] at hi
  · simp [classify, hi]
  · simp [classify, hi, hse.symm]
  · simp [classify, hi, hsq.symm, heq.symm]
  · simp [classify, hi, hsa.symm, hea.symm, hqa.symm]
  · have hne := ackPrefix_append_ne_token hc v
    simp only [List.forall_mem_cons] at hne
    simp [classify, hi, hne]
  · simp only [List.all_cons, List.all_nil, Bool.and_eq_true, bne_iff_ne, Option.isNone_iff_eq_none] at hi
    simp [classify, hi]

/-! ### Refused with RESERVED_ENCODING (R85) -/

/-- The three reserved rows. -/
def Instr.isReserved : Instr → Bool
  | .reservedSignalKind _ => true
  | .reservedImm _ _ => true
  | .reservedOp _ _ => true
  | _ => false

theorem exec_reserved {i : Instr} (h : i.isReserved = true) (s : State) : exec i s = .refused .reservedEncoding := by
  cases i with
  | reservedSignalKind | reservedImm | reservedOp => rfl
  | _ => cases h

theorem execSend_cases (m : Bytes) (s : State) :
    execSend m s = .refused .sendBusy ∨ execSend m s = .next (senderStart m s) := by
  unfold execSend
  split
  · exact .inl rfl
  · exact .inr rfl

/-- The other rows answer a next state, but SEND, which can be refused for another reason. -/
theorem exec_eq_reservedEncoding_iff (i : Instr) (s : State) :
    exec i s = .refused .reservedEncoding ↔ i.isReserved = true := by
  refine ⟨fun h => ?_, fun h => exec_reserved h s⟩
  cases i with
  | reservedSignalKind | reservedImm | reservedOp => rfl
  | send m =>
    have hs : execSend m s = .refused .reservedEncoding := h
    obtain hm | hm := execSend_cases m s <;> rw [hm] at hs <;> cases hs
  | _ => cases h

/-- Which fields are reserved, read off the table. -/
theorem CommandRow.isReserved_iff {operand : Bytes} {op imm : BitVec 4} {i : Instr}
    (h : CommandRow operand op imm i) : i.isReserved = true ↔
      (7 ≤ op.toNat ∨ (op.toNat ∈ [0, 1, 4, 5, 6] ∧ imm.toNat ≠ 0) ∨ (op.toNat = 3 ∧ 6 ≤ imm.toNat / 2)) := by
  cases h with
  | reset | rxChunk | tick | send | cancel | iofault => simp [Instr.isReserved]
  | signal k a => cases k <;> cases a <;> decide
  | reservedSignalKind low => revert low; decide
  | reservedImm hop himm =>
    have hne : imm.toNat ≠ 0 := fun h => himm (BitVec.eq_of_toNat_eq h)
    exact iff_of_true rfl (.inr (.inl ⟨hop, hne⟩))
  | reservedOp _ hop => exact iff_of_true rfl (.inl hop)

/-! ### The statements -/

/-- Settles O1: a command is read back by its row, a line by its class. -/
theorem decodeOfEncode : Obligations.DecodeOfEncode := by
  intro c i hc hi
  cases he : encode i with
  | command b operand =>
    obtain ⟨op, imm, rfl, hrow⟩ := exists_commandRow hi he
    rw [decode, hrow.decodeCommand_eq]
  | line l => rw [decode, if_pos (isLine_of_wellFormed hi he), classify_of_wellFormed hc hi he]

/-- Settles O2: the decoded instruction stands in the table with the byte's fields. -/
theorem encodeOfDecode : Obligations.EncodeOfDecode := by
  intro c b operand
  have hrow := commandRow_decodeCommand b operand
  exact ⟨hrow.wellFormed c, by simpa using hrow.encode_eq⟩

/-- Settles O3: only the reserved rows answer this refusal, and the table says which fields are theirs. -/
theorem reservedEncodingsRefused : Obligations.ReservedEncodingsRefused := by
  intro b operand s
  rw [exec_eq_reservedEncoding_iff, (commandRow_decodeCommand b operand).isReserved_iff, opField_toNat, immField_toNat]

/-- Settles O6: the class that the tests find, which are exclusive. -/
theorem everyLineHasOneClass : Obligations.EveryLineHasOneClass := by
  intro c l hc hl
  refine ⟨classify c l, if_pos hl, isSome_lineClass_classify c l, fun j => ⟨?_, ?_⟩⟩
  · rintro ⟨hj, he⟩
    exact (classify_of_wellFormed hc hj he).symm
  · rintro rfl
    exact ⟨wellFormed_classify c hl, encode_classify c l⟩

/-- Settles O4: each of the three rows is reserved. -/
theorem reservedRowsStop : Obligations.ReservedRowsStop :=
  fun _ _ _ s => ⟨exec_reserved rfl s, exec_reserved rfl s, exec_reserved rfl s⟩

/-- Settles O5: the decoder evaluates on these words. -/
theorem tabledWordsDecode : Obligations.TabledWordsDecode := by
  unfold Obligations.TabledWordsDecode
  decide

/-- Settles O59: the assembler evaluates on these lines. -/
theorem assemblerExamples : Obligations.AssemblerExamples := by
  unfold Obligations.AssemblerExamples
  decide

end Sys2Proof
end

section
/-! Proofs of the statements of 40_block_interface.md (R100 to R118): the way the open loop goes, IOFAULT, TICK, RESET,
and the step around a command. -/

namespace Sys2Proof

open Machine Claims

namespace Machine

/-! ### The way of the open loop (R104, R234) -/

/-- The way an open loop of at most `k` tries goes with given outcomes: how many opens it makes, whether the port is
then open, and the outcomes not drawn. `opens_iff` ties it to `Opens`, `openLoop_eq_afterOpen` to the loop. -/
def openWay : Nat → List OpenOutcome → Nat × Bool × List OpenOutcome
  | 0, os => (0, false, os)
  | _ + 1, [] => (1, true, [])
  | _ + 1, .ok :: os => (1, true, os)
  | _ + 1, .busy :: os => (1, false, os)
  | k + 1, .fail :: os => ((openWay k os).1 + 1, (openWay k os).2)

section Opens

variable {k n : Nat} {ok : Bool} {os rest : List OpenOutcome}

/-- With no try left nothing is drawn. -/
theorem opens_zero : Opens 0 os n ok rest ↔ n = 0 ∧ ok = false ∧ rest = os := by
  unfold Opens
  constructor
  · rintro (⟨-, h1, h0, -⟩ | ⟨-, h1, h0, -⟩ | ⟨-, h1, h0, -⟩ | ⟨hok, hn, ho⟩)
    · omega
    · omega
    · omega
    · exact ⟨hn, hok, ho.symm⟩
  · rintro ⟨rfl, rfl, rfl⟩
    exact .inr (.inr (.inr ⟨rfl, rfl, rfl⟩))

/-- A loop with a try left makes an open. -/
theorem not_opens_succ_zero : ¬ Opens (k + 1) os 0 ok rest := by simp [Opens]

/-- After the outcomes presented every open is `OK` (log entry 8). -/
theorem opens_succ_nil : Opens (k + 1) [] (n + 1) ok rest ↔ n = 0 ∧ ok = true ∧ rest = [] := by
  cases n <;> simp [Opens, List.replicate_succ]

theorem opens_succ_ok : Opens (k + 1) (.ok :: os) (n + 1) ok rest ↔ n = 0 ∧ ok = true ∧ rest = os := by
  cases n <;> simp [Opens, List.replicate_succ, eq_comm]

theorem opens_succ_busy : Opens (k + 1) (.busy :: os) (n + 1) ok rest ↔ n = 0 ∧ ok = false ∧ rest = os := by
  cases n <;> simp [Opens, List.replicate_succ, eq_comm]

/-- After a `FAIL` the loop goes on with one try less. -/
theorem opens_succ_fail : Opens (k + 1) (.fail :: os) (n + 1) ok rest ↔ Opens k os n ok rest := by
  cases n with
  | zero => simp [Opens, List.replicate_succ, eq_comm (a := k)]
  | succ n => simp [Opens, List.replicate_succ]

/-- There is exactly one way, which `openWay` computes. -/
theorem opens_iff : Opens k os n ok rest ↔ openWay k os = (n, ok, rest) := by
  induction k generalizing os n with
  | zero => simp [opens_zero, openWay, eq_comm]
  | succ k ih =>
    cases n with
    | zero =>
      refine iff_of_false not_opens_succ_zero ?_
      rcases os with _ | ⟨_ | _ | _, os⟩ <;> simp [openWay]
    | succ n =>
      rcases os with _ | ⟨_ | _ | _, os⟩
      · simp [opens_succ_nil, openWay, eq_comm]
      · simp [opens_succ_ok, openWay, eq_comm]
      · simp [opens_succ_busy, openWay, eq_comm]
      · simp [opens_succ_fail, ih, openWay, Prod.ext_iff]

theorem opens_openWay (k : Nat) (os : List OpenOutcome) :
    Opens k os (openWay k os).1 (openWay k os).2.1 (openWay k os).2.2 := opens_iff.2 rfl

/-- A loop with a try makes at least one open, and none beyond its tries. -/
theorem opens_bounds (h : Opens k os n ok rest) (hk : 1 ≤ k) : 1 ≤ n ∧ n ≤ k := by
  unfold Opens at h
  omega

/-- The loop goes the way of its outcomes (R234). -/
theorem openLoop_eq_afterOpen {s : State} (h : Opens k s.oracle n ok rest) :
    openLoop k s = afterOpen n ok rest s := by
  induction k generalizing s n with
  | zero =>
    obtain ⟨rfl, rfl, rfl⟩ := opens_zero.1 h
    simp [openLoop, afterOpen]
  | succ k ih =>
    cases n with
    | zero => exact absurd h not_opens_succ_zero
    | succ n =>
      match ho : s.oracle with
      | [] =>
        obtain ⟨rfl, rfl, rfl⟩ := opens_succ_nil.1 (ho ▸ h)
        simp [openLoop, drawOpen, ho, afterOpen, emit, emits, opened]
      | .ok :: os =>
        obtain ⟨rfl, rfl, rfl⟩ := opens_succ_ok.1 (ho ▸ h)
        simp [openLoop, drawOpen, ho, afterOpen, emit, emits, opened]
      | .busy :: os =>
        obtain ⟨rfl, rfl, rfl⟩ := opens_succ_busy.1 (ho ▸ h)
        simp [openLoop, drawOpen, ho, afterOpen, emit, emits]
      | .fail :: os =>
        have hrest : Opens k os n ok rest := opens_succ_fail.1 (ho ▸ h)
        calc openLoop (k + 1) s
          _ = openLoop k { emit (openEvent s.cfg) s with oracle := os } := by simp [openLoop, drawOpen, ho]
          _ = afterOpen n ok rest { emit (openEvent s.cfg) s with oracle := os } := ih hrest
          _ = afterOpen (n + 1) ok rest s := by simp [afterOpen, List.replicate_succ]

end Opens

/-- Opening the port goes the way of its outcomes (R234). -/
theorem openPort_eq_afterOpen {s : State} {n : Nat} {ok : Bool} {rest : List OpenOutcome}
    (h : Opens s.cfg.openMaxTries s.oracle n ok rest) : openPort s = afterOpen n ok rest s :=
  openLoop_eq_afterOpen h

/-- The state after an open loop in the words of the statements (R234). -/
theorem afterOpen_eq_afterOpening (n : Nat) (ok : Bool) (rest : List OpenOutcome) (s : State) :
    afterOpen n ok rest s = afterOpening s n ok rest := rfl

@[simp] theorem beforeReopen_cfg (s : State) : (beforeReopen s).cfg = s.cfg := by rw [beforeReopen_eq]

@[simp] theorem beforeReopen_oracle (s : State) : (beforeReopen s).oracle = s.oracle := by rw [beforeReopen_eq]

/-- The state after a reconnect in the words of the statements (R240). -/
theorem afterOpen_beforeReopen_eq_reconnected (n : Nat) (ok : Bool) (rest : List OpenOutcome) (s : State) :
    afterOpen n ok rest (beforeReopen s) = reconnected s n ok rest := by
  rw [beforeReopen_eq]
  simp [afterOpen, reconnected, openEvents, openEvent, opens, crcInit]

/-- A reconnect reopens the port the way of its outcomes (R240, R234). -/
theorem reconnect_eq_reconnected {s : State} {n : Nat} {ok : Bool} {rest : List OpenOutcome}
    (h : Opens s.cfg.openMaxTries s.oracle n ok rest) : reconnect s = reconnected s n ok rest :=
  calc reconnect s
    _ = openPort (beforeReopen s) := rfl
    _ = afterOpen n ok rest (beforeReopen s) := openPort_eq_afterOpen (by simpa using h)
    _ = reconnected s n ok rest := afterOpen_beforeReopen_eq_reconnected n ok rest s

/-! ### TICK (R110, R197) -/

/-- Before the deadline a tick is counted (R197). -/
theorem senderTick_of_ne {s : State} (h : s.txWaitCnt + 1 ≠ s.cfg.ackTicks) :
    senderTick s = { s with txWaitCnt := s.txWaitCnt + 1 } := if_neg h

/-- At the deadline the attempt has failed (R197, R198). -/
theorem senderTick_of_eq {s : State} (h : s.txWaitCnt + 1 = s.cfg.ackTicks) :
    senderTick s = retried { s with txWaitCnt := s.txWaitCnt + 1 } :=
  (if_pos h).trans (attemptFailed_eq_retried _)

theorem exec_tick_of_rx {s : State} (h : s.role = .rx) (v : Levels) :
    exec (.tick v) s = .next (monitorTick v s) := by
  simp [exec, execTick, h]

theorem exec_tick_of_txWait {s : State} (h : s.role = .txWait) (v : Levels) :
    exec (.tick v) s = .next (monitorTick v (senderTick s)) := by
  simp [exec, execTick, h]

/-! ### IOFAULT (R118) -/

theorem exec_iofault_of_closed {s : State} (h : s.portOpen = false) : exec .iofault s = .next s := by
  simp [exec, execIofault, h]

theorem exec_iofault_of_open {s : State} (h : s.portOpen = true) : exec .iofault s = .next (reconnect s) := by
  simp [exec, execIofault, h]

/-! ### RESET (R101, R310) -/

/-- STATUS reads 0 after RESET (R310). -/
theorem status_resetRegisters (s : State) : status (resetRegisters s) = 0x0000#16 := by
  simp [status, iterField, TxRcv.tag, Role.code, RxState.code]

/-! ### The step around a command (R100) -/

/-- A result over a capacity is refused (R106). -/
theorem complete_next_of_not_within {s : State} (h : ¬ Within s) : complete (.next s) = .refused .capacity :=
  if_neg (mt (withinCapacity_iff s).1 h)

/-- A step runs the instruction of the command first in the queue, in the state its operation begins in (R100). -/
theorem step_of_command {s : State} {b : Byte} {operand : Bytes} {os : List OpenOutcome} {rest : List Input}
    (h : configValid s.cfg = true) (hi : s.inputs = ⟨.command b operand, os⟩ :: rest) :
    step s = complete (exec (decodeCommand b operand) (beginOp os rest s)) := step_of_inputs h hi

/-- Eight bits are a command byte with nothing attached, placed first in the queue (log entries 2 and 16). -/
theorem withFetchWord_eight (s : State) (w : Nat) :
    s.withFetchWord 8 w = { s with inputs := ⟨.command (BitVec.ofNat 8 w) [], []⟩ :: s.inputs } := rfl

end Machine

/-- Settles O38, by the one way `openWay` computes. -/
theorem openLoopBounded : Obligations.OpenLoopBounded := by
  intro s hmax
  have hway := opens_openWay s.cfg.openMaxTries s.oracle
  obtain ⟨hmin, hle⟩ := opens_bounds hway hmax
  refine ⟨_, _, _, hway, hmin, hle, ?_, fun n ok rest h => ?_⟩
  · rw [openPort_eq_afterOpen hway, afterOpen_eq_afterOpening]
  · rw [opens_iff.1 h]
    exact ⟨rfl, rfl, rfl⟩

/-- Settles O39: the reconnect goes the way of its outcomes. -/
theorem iofaultReconnects : Obligations.IofaultReconnects := by
  intro s n ok rest
  refine ⟨exec_iofault_of_closed, fun hopen hway => ?_⟩
  rw [exec_iofault_of_open hopen, reconnect_eq_reconnected hway]

/-- Settles O30, by the two ways the sender's half of a tick goes. -/
theorem tickDeadlineThenMonitor : Obligations.TickDeadlineThenMonitor := by
  intro s v
  refine ⟨fun hrx => exec_tick_of_rx hrx v, fun hwait hne => ?_, fun hwait heq => ?_⟩
  · rw [exec_tick_of_txWait hwait, senderTick_of_ne hne]
  · rw [exec_tick_of_txWait hwait, senderTick_of_eq heq]

/-- Settles O41: the state is the one `resetRegisters` builds, and its STATUS is a constant. -/
theorem resetEffect : Obligations.ResetEffect :=
  fun s => ⟨resetRegisters s, rfl, rfl, status_resetRegisters s⟩

/-- Settles O44: a step is `complete` of the instruction's outcome, case by case. -/
theorem stepRunsCommand : Obligations.StepRunsCommand := by
  intro s b operand os rest hcfg hi
  have hstep := step_of_command hcfg hi
  refine ⟨fun t ht => ⟨fun hw => ?_, fun hw => ?_⟩, fun r hr => ?_, fun w => ?_⟩
  · rw [hstep, beginOp, ht, complete_next_of_within hw]
  · rw [hstep, beginOp, ht, complete_next_of_not_within hw]
  · rw [hstep, beginOp, hr, complete]
  · rw [withFetchWord_eight]

end Sys2Proof
end

section
/-! Proofs of the statements of 41_line_splitter.md (R130 to R138): the splitter byte by byte, its empty lines, chunks one
after the other, the checksum of its lines, and that a `PURGE` empties the fragment. -/

namespace Sys2Proof

open Machine Claims

namespace Machine

variable {s u : State}

/-! ### The splitter byte by byte

The segment form of R131 obeys three equations: nothing left, a byte of a line, a run of separators. -/

/-- A run of separators ends the first segment (R131). -/
theorem segments_cons_sep_dropWhile {b : Byte} (hb : isSep b = true) (l : Bytes) :
    segments (b :: l) = ([], (segments (l.dropWhile isSep)).1 :: (segments (l.dropWhile isSep)).2) := by
  induction l generalizing b with
  | nil => rw [segments_cons_sep hb]; rfl
  | cons c l ih =>
    rw [segments_cons_sep hb]
    by_cases hc : isSep c = true
    · rw [List.dropWhile_cons_of_pos hc, ← ih hc]
      exact if_pos hc
    · rw [List.dropWhile_cons_of_neg hc]
      exact if_neg hc

@[simp] theorem split_nil (frag : Bytes) : split frag [] = ([], frag) := by simp [split_eq]

theorem split_cons_byte {b : Byte} (hb : isSep b = false) (frag l : Bytes) :
    split frag (b :: l) = split (frag ++ [b]) l := by simp [split_eq, segments_cons_byte hb]

theorem split_cons_sep {b : Byte} (hb : isSep b = true) (frag l : Bytes) :
    split frag (b :: l) = (frag :: (split [] (l.dropWhile isSep)).1, (split [] (l.dropWhile isSep)).2) := by
  simp [split_eq, segments_cons_sep_dropWhile hb]

/-- Bytes that are no separators join the fragment (R132). -/
theorem split_append_of_isLine {a : Bytes} (ha : isLine a = true) (frag l : Bytes) :
    split frag (a ++ l) = split (frag ++ a) l := by
  induction a generalizing frag with
  | nil => simp
  | cons b a ih =>
    obtain ⟨hb, ha⟩ : isSep b = false ∧ isLine a = true := by simpa using ha
    rw [List.cons_append, split_cons_byte hb, ih ha, List.append_assoc, List.singleton_append]

/-! ### The byte-serial form (R134) -/

/-- In a run the byte-serial form skips the separators; outside a run it splits. -/
theorem splitSerial_eq (acc : Bytes) (inRun : Bool) (l : Bytes) :
    splitSerial acc inRun l = split acc (if inRun then l.dropWhile isSep else l) := by
  induction l generalizing acc inRun with
  | nil => cases inRun <;> simp [splitSerial]
  | cons b l ih =>
    by_cases hb : isSep b = true
    · cases inRun <;> simp [splitSerial, hb, ih, split_cons_sep]
    · simp only [Bool.not_eq_true] at hb
      cases inRun <;> simp [splitSerial, hb, ih, split_cons_byte]

/-! ### Empty lines (R135) -/

/-- Only the first line can be empty, and not within a run of separators. -/
theorem nil_mem_splitSerial_iff (acc : Bytes) (inRun : Bool) (l : Bytes) :
    [] ∈ (splitSerial acc inRun l).1 ↔ acc = [] ∧ inRun = false ∧ startsWithSep l = true := by
  induction l generalizing acc inRun with
  | nil => simp [splitSerial, startsWithSep]
  | cons b l ih =>
    by_cases hb : isSep b = true
    · cases inRun <;> simp [splitSerial, startsWithSep, hb, ih, eq_comm (b := acc)]
    · simp [splitSerial, startsWithSep, hb, ih]

theorem nil_mem_split_iff (frag l : Bytes) :
    [] ∈ (split frag l).1 ↔ frag = [] ∧ startsWithSep l = true := by
  simpa [splitSerial_eq] using nil_mem_splitSerial_iff frag false l

theorem nil_notMem_split_dropWhile (frag l : Bytes) : [] ∉ (split frag (l.dropWhile isSep)).1 := by
  simpa [splitSerial_eq] using nil_mem_splitSerial_iff frag true l

theorem startsWithSep_iff (l : Bytes) : startsWithSep l = true ↔ ∃ b rest, l = b :: rest ∧ isSep b = true := by
  cases l <;> simp [startsWithSep]

/-! ### Chunks one after the other (R136) -/

/-- A result of the splitter without its empty lines: what does not depend on the chunks. -/
def dropEmpty (r : List Bytes × Bytes) : List Bytes × Bytes := (r.1.filter (fun l => l ≠ []), r.2)

/-- Lines put before two results that are alike but for empty lines. -/
theorem dropEmpty_append_congr (ls : List Bytes) {q r : List Bytes × Bytes} (h : dropEmpty q = dropEmpty r) :
    dropEmpty (ls ++ q.1, q.2) = dropEmpty (ls ++ r.1, r.2) := by
  simp_all [dropEmpty]

/-- Separators before a chunk make at most an empty line. -/
theorem dropEmpty_split_dropWhile (l : Bytes) : dropEmpty (split [] (l.dropWhile isSep)) = dropEmpty (split [] l) := by
  cases l with
  | nil => rfl
  | cons b l =>
    by_cases hb : isSep b = true
    · simp [dropEmpty, split_cons_sep, hb]
    · rw [List.dropWhile_cons_of_neg hb]

theorem dropEmpty_split_cons_sep {b : Byte} (hb : isSep b = true) (frag l : Bytes) :
    dropEmpty (split frag (b :: l)) = dropEmpty ([frag] ++ (split [] l).1, (split [] l).2) := by
  rw [split_cons_sep hb]
  exact dropEmpty_append_congr [frag] (dropEmpty_split_dropWhile l)

/-- One more chunk after two results that are alike but for empty lines. -/
theorem dropEmpty_append_split_congr {q r : List Bytes × Bytes} (h : dropEmpty q = dropEmpty r) (e : Bytes) :
    dropEmpty (q.1 ++ (split q.2 e).1, (split q.2 e).2) = dropEmpty (r.1 ++ (split r.2 e).1, (split r.2 e).2) := by
  simp_all [dropEmpty]

/-- Two chunks, one after the other, differ from the one chunk they make by empty lines only. -/
theorem dropEmpty_split_append (frag d e : Bytes) : dropEmpty (split frag (d ++ e)) =
    dropEmpty ((split frag d).1 ++ (split (split frag d).2 e).1, (split (split frag d).2 e).2) := by
  induction d generalizing frag with
  | nil => simp
  | cons b d ih =>
    by_cases hb : isSep b = true
    · calc dropEmpty (split frag (b :: (d ++ e)))
          = dropEmpty ([frag] ++ (split [] (d ++ e)).1, (split [] (d ++ e)).2) := dropEmpty_split_cons_sep hb frag _
        _ = dropEmpty ([frag] ++ (split [] d).1 ++ (split (split [] d).2 e).1, (split (split [] d).2 e).2) := by
          rw [dropEmpty_append_congr [frag] (ih []), List.append_assoc]
        _ = _ := (dropEmpty_append_split_congr (dropEmpty_split_cons_sep hb frag d) e).symm
    · simp only [Bool.not_eq_true] at hb
      rw [List.cons_append, split_cons_byte hb, split_cons_byte hb, ih]

/-- However a stream is cut into chunks, the splitter answers as for the stream in one chunk, but for empty lines. -/
theorem dropEmpty_splitAll (frag : Bytes) (ds : List Bytes) :
    dropEmpty (splitAll frag ds) = dropEmpty (split frag ds.flatten) := by
  induction ds generalizing frag with
  | nil => simp [splitAll]
  | cons d ds ih =>
    rw [List.flatten_cons, dropEmpty_split_append]
    exact dropEmpty_append_congr (split frag d).1 (ih (split frag d).2)

/-- The bytes of a result do not depend on its empty lines. -/
theorem flatten_dropEmpty (r : List Bytes × Bytes) : (dropEmpty r).1.flatten ++ (dropEmpty r).2 = r.1.flatten ++ r.2 := by
  rw [dropEmpty, List.flatten_filter_ne_nil]

/-- A chunk that ends on a separator leaves no fragment (R133). -/
theorem split_append_sep_fragment {b : Byte} (hb : isSep b = true) (frag d : Bytes) :
    (split frag (d ++ [b])).2 = [] := by
  have h := congrArg Prod.snd (dropEmpty_split_append frag d [b])
  simpa [dropEmpty, split_cons_sep hb] using h

/-! ### A message and its terminator (R162) -/

theorem stripSep_of_all_isSep {l : Bytes} (h : l.all isSep = true) : stripSep l = [] := by
  simpa [stripSep] using h

/-- A terminator leaves no fragment, so the lines alone hold the message. -/
theorem split_flatten_of_terminated {eol : Bytes} (hne : eol ≠ []) (hsep : eol.all isSep = true) (m : Bytes) :
    (split [] (m ++ eol)).1.flatten = stripSep m := by
  have hlast : isSep (eol.getLast hne) = true := List.all_eq_true.1 hsep _ (List.getLast_mem hne)
  have hfrag : (split [] (m ++ eol)).2 = [] := by
    rw [← List.dropLast_append_getLast hne, ← List.append_assoc]
    exact split_append_sep_fragment hlast [] _
  simpa [hfrag, stripSep_of_all_isSep hsep] using split_flatten [] (m ++ eol)

/-! ### A `PURGE` empties the fragment (R138, R243) -/

/-- What rules R138 and R243 say of the events of an operation and the fragment after it. -/
def PurgeEmpties (s : State) : Prop := .purge ∈ s.events → s.frag = []

/-- An operation that leaves no fragment may emit what it likes. -/
theorem purgeEmpties_of_frag (h : s.frag = []) : PurgeEmpties s := fun _ => h

/-- An operation that keeps the fragment must emit no `PURGE` of its own. -/
theorem PurgeEmpties.of_kept (h : PurgeEmpties s) (hfrag : u.frag = s.frag)
    (hevents : .purge ∈ u.events → .purge ∈ s.events) : PurgeEmpties u :=
  fun hp => hfrag.trans (h (hevents hp))

theorem PurgeEmpties.finish (h : PurgeEmpties s) (ok : Bool) : PurgeEmpties (finish ok s) := by
  rw [finish_eq]
  exact h.of_kept rfl (by simp [burstEvents, lineEvent])

theorem PurgeEmpties.attemptFailed (h : PurgeEmpties s) : PurgeEmpties (attemptFailed s) := by
  rcases attemptFailed_cases s with ⟨-, e⟩ | ⟨-, e⟩
  · rw [e]
    exact purgeEmpties_of_frag rfl
  · rw [e]
    exact h.finish false

theorem PurgeEmpties.endDelivery (h : PurgeEmpties s) : PurgeEmpties (endDelivery s) := by
  unfold Machine.endDelivery
  split
  · rcases senderEvaluate_cases s with ⟨-, e⟩ | ⟨-, e⟩ | ⟨-, e⟩
    · rw [e]
      exact h
    · rw [e]
      exact h.finish true
    · rw [e]
      exact h.attemptFailed
  · exact h

theorem PurgeEmpties.senderTick (h : PurgeEmpties s) : PurgeEmpties (senderTick s) := by
  rcases senderTick_cases s with ⟨-, e⟩ | ⟨-, e⟩
  · rw [e]
    exact h
  · rw [e]
    exact PurgeEmpties.attemptFailed (s := { s with txWaitCnt := s.txWaitCnt + 1 }) h

theorem PurgeEmpties.senderStart (h : PurgeEmpties s) (message : Bytes) : PurgeEmpties (senderStart message s) := by
  unfold Machine.senderStart
  split
  · exact purgeEmpties_of_frag rfl
  · exact h.of_kept rfl (by simp)

theorem PurgeEmpties.senderCancel (h : PurgeEmpties s) : PurgeEmpties (senderCancel s) := by
  unfold Machine.senderCancel
  split
  · exact h.finish false
  · exact h

/-- The open loop purges when it opens the port, and then empties the fragment (R234). -/
theorem PurgeEmpties.afterOpen (h : PurgeEmpties s) (n : Nat) (ok : Bool) (rest : List OpenOutcome) :
    PurgeEmpties (afterOpen n ok rest s) := by
  cases ok with
  | true => exact purgeEmpties_of_frag rfl
  | false => exact h.of_kept rfl (by simp [Machine.afterOpen, openEvent])

theorem purgeEmpties_beforeReopen (s : State) : PurgeEmpties (beforeReopen s) :=
  purgeEmpties_of_frag (by rw [beforeReopen_eq])

theorem purgeEmpties_reconnect (s : State) : PurgeEmpties (reconnect s) := by
  obtain ⟨n, ok, rest, -, -, e⟩ := reconnect_cases s
  rw [e]
  exact (purgeEmpties_beforeReopen s).afterOpen n ok rest

theorem PurgeEmpties.monitorTick (h : PurgeEmpties s) (v : Levels) : PurgeEmpties (monitorTick v s) := by
  obtain ⟨p, i, -, -, e | ⟨-, n, ok, rest, -, e⟩ | ⟨-, n, ok, rest, -, e⟩ | ⟨-, e⟩⟩ := monitorTick_all v s
  · rw [e]
    exact h
  · rw [e]
    exact PurgeEmpties.afterOpen (s := { s with pollCnt := p, idleCnt := i }) h n ok rest
  · rw [e]
    exact (purgeEmpties_beforeReopen _).afterOpen n ok rest
  · rw [e]
    exact h

/-! The receiver and the detector never purge. -/

theorem purge_mem_receiverWrite_iff (t : Bytes) (s : State) :
    .purge ∈ (receiverWrite t s).events ↔ .purge ∈ s.events := by simp [lineEvent]

theorem purge_mem_processing_iff (s : State) : .purge ∈ (processing s).events ↔ .purge ∈ s.events := by
  simp [processing, lineEvent]

theorem LineStep.purge_mem_iff (h : LineStep s u) : .purge ∈ u.events ↔ .purge ∈ s.events := by
  cases h with
  | ignored => rfl
  | begun => simp
  | appended => rfl
  | acknowledged => simp [purge_mem_processing_iff]
  | announced => exact purge_mem_receiverWrite_iff _ s
  | delivered => simp [endFrame]
  | aborted => simp [endFrame]
  | received => rfl

theorem purge_mem_route_iff (l : Bytes) (s : State) : .purge ∈ (route l s).events ↔ .purge ∈ s.events := by
  cases hrole : s.role with
  | rx =>
    obtain ⟨hstep, -⟩ := route_cases l (leaveProcessing_rxst_ne s)
    rw [route_leaveProcessing hrole, hstep.purge_mem_iff, leaveProcessing]
    split
    · exact purge_mem_processing_iff s
    · rfl
  | txWait =>
    obtain ⟨r, e⟩ := route_of_txWait hrole l
    rw [e]

theorem purge_mem_routeAll_iff (ls : List Bytes) (s : State) :
    .purge ∈ (routeAll ls s).events ↔ .purge ∈ s.events := by
  induction ls generalizing s with
  | nil => rfl
  | cons l ls ih => rw [routeAll_cons, ih, purge_mem_route_iff]

theorem PurgeEmpties.deliver (h : PurgeEmpties s) (ls : List Bytes) :
    PurgeEmpties (Machine.endDelivery (routeAll ls s)) := by
  obtain ⟨-, -, -, -, hfrag⟩ := routeAll_frame ls s
  exact (h.of_kept hfrag (purge_mem_routeAll_iff ls s).1).endDelivery

/-- Every instruction begins with no event, so what it purges it empties. -/
theorem StepEffect.purgeEmpties {tr : Transaction} (he : StepEffect s tr u) (hnone : s.events = []) :
    PurgeEmpties u := by
  have hstart (frag : Bytes) : PurgeEmpties { s with frag := frag } := fun hp => by simp [hnone] at hp
  have h : PurgeEmpties s := hstart s.frag
  cases he with
  | reset => exact purgeEmpties_of_frag rfl
  | chunk => exact (hstart _).deliver _
  | chunkDropped => exact h
  | tick =>
    split
    · exact h.senderTick.monitorTick _
    · exact h.monitorTick _
  | relayed => exact h.of_kept rfl (by simp)
  | notRelayed => exact h
  | sent => exact h.senderStart _
  | cancel => exact h.senderCancel
  | iofault =>
    split
    · exact purgeEmpties_reconnect s
    · exact h
  | @line l => exact h.deliver [l]
  | lineDropped => exact h

end Machine

/-- Settles O9: outside a run of separators the byte-serial form splits. -/
theorem splitByteSerialAgrees : Obligations.SplitByteSerialAgrees :=
  fun frag data => splitSerial_eq frag false data

/-- Settles O10, by the equations of the splitter: bytes that are no separators join the fragment, a separator ends
it. -/
theorem splitFragmentRules : Obligations.SplitFragmentRules := by
  intro frag a d rest b ha hb
  refine ⟨split_nil frag, ?_, ⟨(split [] (rest.dropWhile isSep)).1, ?_⟩, split_append_sep_fragment hb frag d⟩
  · simpa using split_append_of_isLine ha frag []
  · rw [split_append_of_isLine ha, split_append_of_isLine ha, split_cons_sep hb, split_cons_sep hb]

/-- Settles O11: only the first line can be empty, and what follows it begins after the run of separators. -/
theorem splitEmptyLines : Obligations.SplitEmptyLines := by
  refine ⟨fun frag data => ?_, fun data hmem => ?_, by decide, by decide⟩
  · rw [nil_mem_split_iff, startsWithSep_iff]
  · obtain ⟨b, rest, rfl, hb⟩ := (startsWithSep_iff data).1 ((nil_mem_split_iff [] data).1 hmem).right
    exact ⟨_, by rw [split_cons_sep hb], nil_notMem_split_dropWhile [] rest⟩

/-- Settles O12: any two chunkings agree with the stream in one chunk, but for empty lines. -/
theorem streamContentPreserved : Obligations.StreamContentPreserved := by
  refine ⟨fun ds => ?_, fun ds es h => ?_⟩
  · calc (splitAll [] ds).1.flatten ++ (splitAll [] ds).2
        = (split [] ds.flatten).1.flatten ++ (split [] ds.flatten).2 := by
          rw [← flatten_dropEmpty, dropEmpty_splitAll, flatten_dropEmpty]
      _ = stripSep ds.flatten := split_flatten [] ds.flatten
  · have hall : dropEmpty (splitAll [] ds) = dropEmpty (splitAll [] es) := by
      rw [dropEmpty_splitAll, dropEmpty_splitAll, h]
    exact (Prod.mk.inj hall).symm

/-- Settles O14: the checksum is of the content, and the splitter keeps it. -/
theorem bothRolesNormaliseAlike : Obligations.BothRolesNormaliseAlike := by
  intro m eol hne hsep
  have hcontent : ∀ L : List Bytes, L.flatten = stripSep m → normalizeAndChecksum L = crc32 (stripSep m) :=
    fun _ hL => congrArg crc32 hL
  exact ⟨hcontent _ (split_flatten_of_terminated hne hsep m), hcontent⟩

/-- Settles O51: a step is idle, or the effect of its instruction. -/
theorem purgeClearsFragment : Obligations.PurgeClearsFragment := by
  intro s t hstep hp
  obtain ⟨-, ⟨-, rfl⟩ | ⟨tr, os, rest, u, -, he, -, rfl⟩⟩ := step_cases hstep
  · simp at hp
  · exact he.purgeEmpties rfl hp

end Sys2Proof
end

section
/-! Proofs of the statements of 42_frame_receiver.md (R150 to R166, R202): the table of R150 as equations of `exec`, the
frames that lines build, and which steps write a receiver register. -/

namespace Sys2Proof

open Machine Claims

namespace Machine

variable {s t u : State} {i : Instr} {l : Bytes} {ls : List Bytes}

/-! ### A line while `ROLE = RX` (R108) -/

theorem exec_lineStx_of_rx (h : s.role = .rx) (l : Bytes) : exec (.lineStx l) s = .next (receiveStx l s) :=
  congrArg _ (if_pos h)

theorem exec_lineEtx_of_rx (h : s.role = .rx) (l : Bytes) : exec (.lineEtx l) s = .next (receiveEtx s) :=
  congrArg _ (if_pos h)

theorem exec_lineEnq_of_rx (h : s.role = .rx) (l : Bytes) : exec (.lineEnq l) s = .next (receiveEnq l s) :=
  congrArg _ (if_pos h)

theorem exec_lineAck_of_rx (h : s.role = .rx) (l : Bytes) : exec (.lineAck l) s = .next (receiveAck l s) :=
  congrArg _ (if_pos h)

theorem exec_lineAckv_of_rx (h : s.role = .rx) (l v : Bytes) : exec (.lineAckv l v) s = .next (receiveOther l s) :=
  congrArg _ (if_pos h)

theorem exec_lineOther_of_rx (h : s.role = .rx) (l : Bytes) : exec (.lineOther l) s = .next (receiveOther l s) :=
  congrArg _ (if_pos h)

/-! ### The table of R150

Two groups of cells, and the five cells that stand for themselves. -/

/-- The cells of R150 in which a line is ignored. -/
inductive Ignored : RxState → Instr → Prop
  | etxInIdle (l : Bytes) : Ignored .idle (.lineEtx l)
  | ackInIdle (l : Bytes) : Ignored .idle (.lineAck l)
  | ackvInIdle (l v : Bytes) : Ignored .idle (.lineAckv l v)
  | otherInIdle (l : Bytes) : Ignored .idle (.lineOther l)
  | stxInWaiting (l : Bytes) : Ignored .waiting (.lineStx l)
  | enqInWaiting (l : Bytes) : Ignored .waiting (.lineEnq l)
  | ackvInWaiting (l v : Bytes) : Ignored .waiting (.lineAckv l v)
  | otherInWaiting (l : Bytes) : Ignored .waiting (.lineOther l)

/-- The classes of the line `l` that RECEIVING appends to the frame: all but ETX. -/
inductive Appended (l : Bytes) : Instr → Prop
  | stx : Appended l (.lineStx l)
  | enq : Appended l (.lineEnq l)
  | ack : Appended l (.lineAck l)
  | ackv (v : Bytes) : Appended l (.lineAckv l v)
  | other : Appended l (.lineOther l)

theorem exec_of_ignored (hrole : s.role = .rx) (h : Ignored s.rxst i) : exec i s = .next s := by
  generalize hx : s.rxst = r at h
  cases h with
  | etxInIdle => simp [exec_lineEtx_of_rx hrole, receiveEtx, leaveProcessing_of_ne, hx]
  | ackInIdle => simp [exec_lineAck_of_rx hrole, receiveAck, leaveProcessing_of_ne, hx]
  | ackvInIdle | ackvInWaiting => simp [exec_lineAckv_of_rx hrole, receiveOther, leaveProcessing_of_ne, hx]
  | otherInIdle | otherInWaiting => simp [exec_lineOther_of_rx hrole, receiveOther, leaveProcessing_of_ne, hx]
  | stxInWaiting => simp [exec_lineStx_of_rx hrole, receiveStx, leaveProcessing_of_ne, hx]
  | enqInWaiting => simp [exec_lineEnq_of_rx hrole, receiveEnq, leaveProcessing_of_ne, hx]

theorem exec_of_appended (hrole : s.role = .rx) (hx : s.rxst = .receiving) (h : Appended l i) :
    exec i s = .next (append l s) := by
  cases h with
  | stx => simp [exec_lineStx_of_rx hrole, receiveStx, leaveProcessing_of_ne, hx]
  | enq => simp [exec_lineEnq_of_rx hrole, receiveEnq, leaveProcessing_of_ne, hx]
  | ack => simp [exec_lineAck_of_rx hrole, receiveAck, leaveProcessing_of_ne, hx]
  | ackv => simp [exec_lineAckv_of_rx hrole, receiveOther, leaveProcessing_of_ne, hx]
  | other => simp [exec_lineOther_of_rx hrole, receiveOther, leaveProcessing_of_ne, hx]

/-- A new frame is being received (R152). -/
def frameBegun (s : State) : State := { s with fbuf := [], crcAcc := crcInit, rxst := .receiving, idleCnt := 0 }

/-- The frame's acknowledgement is written, and the peer's answer to it awaited (R153, R158). -/
def frameAcknowledged (s : State) : State :=
  { s with rxst := .waiting, idleCnt := 0, events := s.events ++
      [.modeWrite, writes s (s.cfg.tokAck ++ [0x3A] ++ dec (s.crcAcc ^^^ crcInit)), .modeRead] }

/-- The frame is over, delivered or aborted (R153, R155). -/
def frameEnded (s : State) : State := { s with fbuf := [], crcAcc := crcInit, rxst := .idle, idleCnt := 0 }

theorem beginFrame_eq_frameBegun (h : s.rxst = .idle) : setRxst .receiving (clearFrame s) = frameBegun s :=
  setRxst_of_ne _ _ (by simp [h])

theorem acknowledge_eq_frameAcknowledged (h : s.rxst = .receiving) :
    processing (setRxst .processing s) = frameAcknowledged s := acknowledge_eq h

theorem endFrame_eq_frameEnded (h : s.rxst = .waiting) : endFrame s = frameEnded s := endFrame_eq (by simp [h])

theorem exec_lineStx_of_idle (hrole : s.role = .rx) (hx : s.rxst = .idle) (l : Bytes) :
    exec (.lineStx l) s = .next (frameBegun s) := by
  simp [exec_lineStx_of_rx hrole, receiveStx, leaveProcessing_of_ne, hx, beginFrame_eq_frameBegun]

theorem exec_lineEtx_of_receiving (hrole : s.role = .rx) (hx : s.rxst = .receiving) (l : Bytes) :
    exec (.lineEtx l) s = .next (frameAcknowledged s) := by
  simp [exec_lineEtx_of_rx hrole, receiveEtx, leaveProcessing_of_ne, hx, acknowledge_eq_frameAcknowledged]

theorem exec_lineEtx_of_waiting (hrole : s.role = .rx) (hx : s.rxst = .waiting) (l : Bytes) :
    exec (.lineEtx l) s = .next (frameEnded s) := by
  simp [exec_lineEtx_of_rx hrole, receiveEtx, leaveProcessing_of_ne, hx, endFrame_eq_frameEnded]

theorem exec_lineEnq_of_idle (hrole : s.role = .rx) (hx : s.rxst = .idle) (l : Bytes) :
    exec (.lineEnq l) s = .next (receiverWrite s.cfg.capLine s) := by
  simp [exec_lineEnq_of_rx hrole, receiveEnq, leaveProcessing_of_ne, hx]

theorem exec_lineAck_of_waiting (hrole : s.role = .rx) (hx : s.rxst = .waiting) (l : Bytes) :
    exec (.lineAck l) s = .next (frameEnded (emit (.deliver s.fbuf) s)) := by
  simp [exec_lineAck_of_rx hrole, receiveAck, leaveProcessing_of_ne, hx, endFrame_eq_frameEnded]

/-! ### PROCESSING (R158; log entry 10) -/

theorem leaveProcessing_of_processing (h : s.rxst = .processing) : leaveProcessing s = frameAcknowledged s := by
  rw [leaveProcessing, if_pos h, processing, setRxst_of_ne _ _ (by simp [h])]
  rfl

/-- Each meaning of a line leaves PROCESSING first (R24). -/
theorem exec_line_leaveProcessing (hrole : s.role = .rx) (l v : Bytes) :
    ∀ i ∈ [Instr.lineStx l, .lineEtx l, .lineEnq l, .lineAck l, .lineAckv l v, .lineOther l],
      exec i s = exec i (leaveProcessing s) := by
  have hidem := leaveProcessing_of_ne (leaveProcessing_rxst_ne s)
  have hrole' : (leaveProcessing s).role = .rx := (leaveProcessing_role s).trans hrole
  simp only [List.forall_mem_cons]
  refine ⟨?stx, ?etx, ?enq, ?ack, ?ackv, ?other, nofun⟩
  case stx => rw [exec_lineStx_of_rx hrole, exec_lineStx_of_rx hrole', receiveStx, receiveStx, hidem]
  case etx => rw [exec_lineEtx_of_rx hrole, exec_lineEtx_of_rx hrole', receiveEtx, receiveEtx, hidem]
  case enq => rw [exec_lineEnq_of_rx hrole, exec_lineEnq_of_rx hrole', receiveEnq, receiveEnq, hidem]
  case ack => rw [exec_lineAck_of_rx hrole, exec_lineAck_of_rx hrole', receiveAck, receiveAck, hidem]
  case ackv => rw [exec_lineAckv_of_rx hrole, exec_lineAckv_of_rx hrole', receiveOther, receiveOther, hidem]
  case other => rw [exec_lineOther_of_rx hrole, exec_lineOther_of_rx hrole', receiveOther, receiveOther, hidem]

/-! ### Lines one after the other (R58) -/

/-- A token trims to itself and is a line (R8). -/
theorem trimsTo_token {c : Config} (hc : configValid c = true) :
    ∀ tok ∈ [c.tokStx, c.tokEtx, c.tokEnq, c.tokAck], trimsTo tok tok = true := by
  obtain ⟨htokens, -⟩ := (configValid_iff c).1 hc
  intro tok htok
  obtain ⟨-, hline, htrim⟩ := htokens tok htok
  exact trimsTo_iff.2 ⟨(isLine_iff tok).2 hline, htrim⟩

theorem classify_tokStx {c : Config} (hc : configValid c = true) : classify c c.tokStx = .lineStx c.tokStx :=
  classify_of_wellFormed hc (trimsTo_token hc _ (by simp)) rfl

theorem classify_tokEtx {c : Config} (hc : configValid c = true) : classify c c.tokEtx = .lineEtx c.tokEtx :=
  classify_of_wellFormed hc (trimsTo_token hc _ (by simp)) rfl

theorem classify_tokAck {c : Config} (hc : configValid c = true) : classify c c.tokAck = .lineAck c.tokAck :=
  classify_of_wellFormed hc (trimsTo_token hc _ (by simp)) rfl

/-- A line that is not of class ETX is of a class that RECEIVING appends (R71, R150). -/
theorem appended_classify {c : Config} (h : isEtx c l = false) : Appended l (classify c l) := by
  rcases classify_cases c l with hc | hc | hc | hc | ⟨v, hc⟩ | hc
  · exact hc ▸ .stx
  · simp [isEtx, hc] at h
  · exact hc ▸ .enq
  · exact hc ▸ .ack
  · exact hc ▸ .ackv v
  · exact hc ▸ .other

/-- The first line acts as its class does, and the others are fed to what it leaves. The configuration `c` is named
apart, since it is the one of every state on the way (R64). -/
theorem feed_cons {c : Config} (hclass : classify c l = i) (he : exec i s = .next t) (hcfg : s.cfg = c) :
    feed (l :: ls) s = feed ls t := by
  simp only [feed, hcfg, hclass, he]

/-- The lines are in the frame and in its checksum (R157). -/
def frameCollected (ls : List Bytes) (s : State) : State :=
  { s with fbuf := s.fbuf ++ ls, crcAcc := crcUpdate s.crcAcc ls.flatten }

theorem frameCollected_nil (s : State) : frameCollected [] s = s := by simp [frameCollected]

theorem frameCollected_append (l : Bytes) (ls : List Bytes) (s : State) :
    frameCollected ls (append l s) = frameCollected (l :: ls) s := by
  simp [frameCollected, append, crcUpdate_append]

/-- RECEIVING collects lines without ETX. -/
theorem feed_append_of_receiving (hrole : s.role = .rx) (hx : s.rxst = .receiving)
    (h : ∀ l ∈ ls, isEtx s.cfg l = false) (more : List Bytes) :
    feed (ls ++ more) s = feed more (frameCollected ls s) := by
  induction ls generalizing s with
  | nil => rw [frameCollected_nil, List.nil_append]
  | cons l ls ih =>
    rw [List.forall_mem_cons] at h
    obtain ⟨hl, hls⟩ := h
    calc feed (l :: (ls ++ more)) s
      _ = feed (ls ++ more) (append l s) := feed_cons rfl (exec_of_appended hrole hx (appended_classify hl)) rfl
      _ = feed more (frameCollected ls (append l s)) := ih hrole hx hls
      _ = feed more (frameCollected (l :: ls) s) := by rw [frameCollected_append]

/-- From IDLE or WAITING one ETX before STX begins an empty frame (R166). -/
theorem feed_etx_stx (hc : configValid s.cfg = true) (hrole : s.role = .rx)
    (hx : s.rxst = .idle ∨ s.rxst = .waiting) :
    ∃ t, feed [s.cfg.tokEtx, s.cfg.tokStx] s = .next t ∧ t.rxst = .receiving ∧ t.fbuf = [] := by
  have hetx := classify_tokEtx hc
  have hstx := classify_tokStx hc
  rcases hx with hx | hx
  · rw [feed_cons hetx (exec_of_ignored hrole (hx ▸ .etxInIdle _)) rfl,
      feed_cons hstx (exec_lineStx_of_idle hrole hx _) rfl]
    exact ⟨_, rfl, rfl, rfl⟩
  · rw [feed_cons hetx (exec_lineEtx_of_waiting hrole hx _) rfl,
      feed_cons hstx (exec_lineStx_of_idle (s := frameEnded s) hrole rfl _) rfl]
    exact ⟨_, rfl, rfl, rfl⟩

/-! ### The writers of the receiver registers (R159, R202, R242) -/

/-- `RXST`, `FBUF` and `CRC_ACC`. -/
def receiverRegs (s : State) : RxState × List Bytes × U32 := (s.rxst, s.fbuf, s.crcAcc)

theorem receiverRegs_eq_iff :
    receiverRegs u = receiverRegs s ↔ u.rxst = s.rxst ∧ u.fbuf = s.fbuf ∧ u.crcAcc = s.crcAcc := by
  simp [receiverRegs]

theorem receiverRegs_attemptFailed (s : State) : receiverRegs (attemptFailed s) = receiverRegs s := by
  rcases attemptFailed_cases s with ⟨-, e⟩ | ⟨-, e⟩ <;> rw [e] <;> rfl

theorem receiverRegs_endDelivery (s : State) : receiverRegs (endDelivery s) = receiverRegs s := by
  unfold endDelivery
  split
  · rcases senderEvaluate_cases s with ⟨-, e⟩ | ⟨-, e⟩ | ⟨-, e⟩
    · rw [e]
    · rw [e]
      rfl
    · rw [e]
      exact receiverRegs_attemptFailed s
  · rfl

theorem receiverRegs_senderTick (s : State) : receiverRegs (senderTick s) = receiverRegs s := by
  rcases senderTick_cases s with ⟨-, e⟩ | ⟨-, e⟩
  · rw [e]
    rfl
  · rw [e]
    exact receiverRegs_attemptFailed _

theorem receiverRegs_senderStart (m : Bytes) (s : State) : receiverRegs (senderStart m s) = receiverRegs s := by
  unfold senderStart
  split <;> rfl

theorem receiverRegs_senderCancel (s : State) : receiverRegs (senderCancel s) = receiverRegs s := by
  unfold senderCancel
  split <;> rfl

theorem close_mem_reconnect (s : State) : .close ∈ (reconnect s).events := by
  obtain ⟨n, ok, rest, -, -, e⟩ := reconnect_cases s
  rw [e]
  exact close_mem_afterOpen_beforeReopen n ok rest s

/-- The monitor writes the receiver registers by the reconnect only, which emits `CLOSE` (R242). -/
theorem receiverRegs_monitorTick (v : Levels) (s : State) :
    receiverRegs (monitorTick v s) = receiverRegs s ∨ .close ∈ (monitorTick v s).events := by
  obtain ⟨p, i, -, -, e | ⟨-, n, ok, rest, -, e⟩ | ⟨-, n, ok, rest, -, e⟩ | ⟨-, e⟩⟩ := monitorTick_all v s
  · rw [e]
    exact .inl rfl
  · rw [e]
    exact .inl rfl
  · rw [e]
    exact .inr (close_mem_afterOpen_beforeReopen n ok rest _)
  · rw [e]
    exact .inl rfl

theorem receiverRegs_tick (v : Levels) (s : State) :
    receiverRegs (monitorTick v (if s.role = .txWait then senderTick s else s)) = receiverRegs s ∨
      .close ∈ (monitorTick v (if s.role = .txWait then senderTick s else s)).events := by
  split
  · rw [← receiverRegs_senderTick s]
    exact receiverRegs_monitorTick v _
  · exact receiverRegs_monitorTick v s

/-- A delivery writes the receiver registers only while `ROLE = RX`, by a line it brings (R202). -/
theorem receiverRegs_deliver (ls : List Bytes) (s : State) :
    receiverRegs (endDelivery (routeAll ls s)) = receiverRegs s ∨ (s.role = .rx ∧ ls ≠ []) := by
  rw [receiverRegs_endDelivery]
  cases hrole : s.role with
  | rx =>
    cases ls with
    | nil => exact .inl rfl
    | cons l ls => exact .inr ⟨rfl, List.cons_ne_nil l ls⟩
  | txWait =>
    obtain ⟨r, e⟩ := routeAll_of_txWait hrole ls
    rw [e]
    exact .inl rfl

theorem nextLines_of_chunk {b : Byte} {o data : Bytes} {os : List OpenOutcome} {rest : List Input}
    (hi : s.inputs = ⟨.command b o, os⟩ :: rest) (hd : decodeCommand b o = .rxChunk data) :
    nextLines s = (split s.frag data).1 := by
  simp only [nextLines, hi, hd]

theorem nextLines_of_line {os : List OpenOutcome} {rest : List Input} (hi : s.inputs = ⟨.line l, os⟩ :: rest) :
    nextLines s = [l] := by
  simp only [nextLines, hi]

/-- The ways the first input of `s` can write the receiver registers. -/
theorem receiverRegs_of_stepEffect {tr : Transaction} {os : List OpenOutcome} {rest : List Input}
    (hi : s.inputs = ⟨tr, os⟩ :: rest) (he : StepEffect (beginOp os rest s) tr u) :
    receiverRegs u = receiverRegs s ∨ nextInstr s = some .reset ∨ .close ∈ u.events ∨
      (s.role = .rx ∧ s.portOpen = true ∧ nextLines s ≠ []) := by
  cases he with
  | reset hd => exact .inr (.inl (by rw [nextInstr_of_command hi, hd]))
  | chunk hd hopen =>
    rw [nextLines_of_chunk hi hd]
    exact (receiverRegs_deliver _ _).imp id fun ⟨hrole, hne⟩ => .inr (.inr ⟨hrole, hopen, hne⟩)
  | chunkDropped => exact .inl rfl
  | tick => exact (receiverRegs_tick _ _).imp id fun hclose => .inr (.inl hclose)
  | relayed => exact .inl rfl
  | notRelayed => exact .inl rfl
  | sent => exact .inl (receiverRegs_senderStart _ _)
  | cancel => exact .inl (receiverRegs_senderCancel _)
  | iofault =>
    split
    · exact .inr (.inr (.inl (close_mem_reconnect _)))
    · exact .inl rfl
  | line _ hopen =>
    rw [nextLines_of_line hi]
    exact (receiverRegs_deliver [_] _).imp id fun ⟨hrole, hne⟩ => .inr (.inr ⟨hrole, hopen, hne⟩)
  | lineDropped => exact .inl rfl

end Machine

/-- Settles O15, by the cells of R150. -/
theorem lineStxEffect : Obligations.LineStxEffect :=
  fun _ l hrole => ⟨fun hx => exec_lineStx_of_idle hrole hx l, fun hx => exec_of_appended hrole hx .stx,
    fun hx => exec_of_ignored hrole (hx ▸ .stxInWaiting l)⟩

/-- Settles O16, by the cells of R150. -/
theorem lineEtxEffect : Obligations.LineEtxEffect :=
  fun _ l hrole => ⟨fun hx => exec_of_ignored hrole (hx ▸ .etxInIdle l),
    fun hx => exec_lineEtx_of_receiving hrole hx l, fun hx => exec_lineEtx_of_waiting hrole hx l⟩

/-- Settles O17, by the cells of R150. -/
theorem lineEnqEffect : Obligations.LineEnqEffect :=
  fun _ l hrole => ⟨fun hx => exec_lineEnq_of_idle hrole hx l, fun hx => exec_of_appended hrole hx .enq,
    fun hx => exec_of_ignored hrole (hx ▸ .enqInWaiting l)⟩

/-- Settles O18, by the cells of R150. -/
theorem lineAckEffect : Obligations.LineAckEffect :=
  fun _ l hrole => ⟨fun hx => exec_of_ignored hrole (hx ▸ .ackInIdle l),
    fun hx => exec_of_appended hrole hx .ack, fun hx => exec_lineAck_of_waiting hrole hx l⟩

/-- Settles O19, by the cells of R150. -/
theorem lineOtherEffect : Obligations.LineOtherEffect := by
  rintro s l v i (rfl | rfl) hrole
  · exact ⟨fun hx => exec_of_ignored hrole (hx ▸ .otherInIdle l), fun hx => exec_of_appended hrole hx .other,
      fun hx => exec_of_ignored hrole (hx ▸ .otherInWaiting l)⟩
  · exact ⟨fun hx => exec_of_ignored hrole (hx ▸ .ackvInIdle l v), fun hx => exec_of_appended hrole hx (.ackv v),
      fun hx => exec_of_ignored hrole (hx ▸ .ackvInWaiting l v)⟩

/-- Settles O21: leaving PROCESSING is the acknowledgement. -/
theorem lineInProcessing : Obligations.LineInProcessing := by
  intro s l v hrole hx i hi
  rw [exec_line_leaveProcessing hrole l v i hi, leaveProcessing_of_processing hx]
  rfl

/-- Settles O22, by the IDLE column of R150. -/
theorem idleContainment : Obligations.IdleContainment := by
  intro s l hrole hx
  rcases classify_cases s.cfg l with h | h | h | h | ⟨v, h⟩ | h <;> rw [h]
  · exact ⟨_, exec_lineStx_of_idle hrole hx l, .inr (.inl rfl)⟩
  · exact ⟨s, exec_of_ignored hrole (hx ▸ .etxInIdle l), .inl rfl⟩
  · exact ⟨_, exec_lineEnq_of_idle hrole hx l, .inr (.inr ⟨rfl, _, rfl⟩)⟩
  · exact ⟨s, exec_of_ignored hrole (hx ▸ .ackInIdle l), .inl rfl⟩
  · exact ⟨s, exec_of_ignored hrole (hx ▸ .ackvInIdle l v), .inl rfl⟩
  · exact ⟨s, exec_of_ignored hrole (hx ▸ .otherInIdle l), .inl rfl⟩

/-- Settles O23: a first ETX leads from IDLE to IDLE, from RECEIVING to WAITING, and from WAITING to IDLE. -/
theorem resynchronization : Obligations.Resynchronization := by
  intro s hc hrole hnot
  have hetx := classify_tokEtx hc
  have hstx := classify_tokStx hc
  refine ⟨?_, feed_etx_stx hc hrole, fun hx => ?_⟩
  · cases hx : s.rxst with
    | idle =>
      rw [feed_cons hetx (exec_of_ignored hrole (hx ▸ .etxInIdle _)) rfl]
      exact feed_etx_stx hc hrole (.inl hx)
    | receiving =>
      rw [feed_cons hetx (exec_lineEtx_of_receiving hrole hx _) rfl]
      exact feed_etx_stx hc hrole (.inr rfl)
    | processing => exact absurd hx hnot
    | waiting =>
      rw [feed_cons hetx (exec_lineEtx_of_waiting hrole hx _) rfl]
      exact feed_etx_stx hc hrole (.inl rfl)
  · rw [feed_cons hetx (exec_lineEtx_of_receiving hrole hx _) rfl,
      feed_cons hstx (exec_of_ignored (s := frameAcknowledged s) hrole (.stxInWaiting _)) rfl]
    exact ⟨_, rfl, rfl⟩

/-- Settles O24: a frame is begun, collected, acknowledged and delivered. -/
theorem frameIntegrity : Obligations.FrameIntegrity := by
  intro s L hc hrole hx hL
  have hbegin := exec_lineStx_of_idle hrole hx s.cfg.tokStx
  have hcollect := feed_append_of_receiving (s := frameBegun s) hrole rfl hL [s.cfg.tokEtx, s.cfg.tokAck]
  have hacknowledge := exec_lineEtx_of_receiving (s := frameCollected L (frameBegun s)) hrole rfl s.cfg.tokEtx
  have hdeliver :=
    exec_lineAck_of_waiting (s := frameAcknowledged (frameCollected L (frameBegun s))) hrole rfl s.cfg.tokAck
  calc feed (s.cfg.tokStx :: (L ++ [s.cfg.tokEtx, s.cfg.tokAck])) s
    _ = feed (L ++ [s.cfg.tokEtx, s.cfg.tokAck]) (frameBegun s) := feed_cons (classify_tokStx hc) hbegin rfl
    _ = feed [s.cfg.tokEtx, s.cfg.tokAck] (frameCollected L (frameBegun s)) := hcollect
    _ = feed [s.cfg.tokAck] (frameAcknowledged (frameCollected L (frameBegun s))) :=
        feed_cons (classify_tokEtx hc) hacknowledge rfl
    _ = .next (frameEnded (emit (.deliver L) (frameAcknowledged (frameCollected L (frameBegun s))))) :=
        feed_cons (classify_tokAck hc) hdeliver rfl
    _ = _ := by simp [frameEnded, emit, emits, frameAcknowledged, frameCollected, frameBegun, writes, crc32, crcInit]

/-- Settles O13: the checksum generator evaluates on these strings. -/
theorem checksumValues : Obligations.ChecksumValues := by
  unfold Obligations.ChecksumValues
  decide +kernel

/-- Settles O53: a step is idle, or the effect of its instruction. -/
theorem receiverWriters : Obligations.ReceiverWriters := by
  intro s t hstep
  obtain ⟨-, ⟨-, rfl⟩ | ⟨tr, os, rest, u, hi, he, -, rfl⟩⟩ := step_cases hstep
  · exact .inl ⟨rfl, rfl, rfl⟩
  · exact (receiverRegs_of_stepEffect hi he).imp receiverRegs_eq_iff.1 id

end Sys2Proof
end

section
/-! Proofs of the statements of 43_frame_sender.md (R190 to R204): the meanings of SEND and CANCEL, the acknowledgement
detector, when a step reports success, and the retry bound. -/

namespace Sys2Proof

open Machine Claims

namespace Machine

variable {s t u : State} {m v : Bytes} {ls : List Bytes} {c : U32}

/-! ### SEND and CANCEL (R190, R191, R203) -/

theorem attemptEvents_eq_attempt (s : State) (m : Bytes) : attemptEvents s.cfg m = attempt s m := rfl

theorem burstEvents_append_eq_ending (s : State) (ok : Bool) :
    burstEvents s.cfg ++ [.sendDone ok] = ending s ok := by
  simp [burstEvents, ending, lineEvent, writes]

theorem exec_send_of_txWait (h : s.role = .txWait) (m : Bytes) : exec (.send m) s = .refused .sendBusy := if_pos h

theorem exec_send_of_rx (h : s.role = .rx) (m : Bytes) : exec (.send m) s = .next (senderStart m s) :=
  if_neg (by simp [h])

theorem senderStart_of_open (h : s.portOpen = true) (m : Bytes) : senderStart m s =
    startAttempt { s with txMsg := m, txExp := crc32 (stripSep m), txIter := 0 } := if_pos h

theorem senderStart_of_closed (h : s.portOpen = false) (m : Bytes) : senderStart m s = emit (.sendDone false) s :=
  if_neg (by simp [h])

theorem exec_cancel (s : State) : exec .cancel s = .next (senderCancel s) := rfl

theorem senderCancel_of_txWait (h : s.role = .txWait) : senderCancel s = finish false s := if_pos h

theorem senderCancel_of_rx (h : s.role = .rx) : senderCancel s = s := if_neg (by simp [h])

/-! ### The acknowledgement detector (R195) -/

theorem exec_lineAckv_of_txWait (h : s.role = .txWait) (l v : Bytes) :
    exec (.lineAckv l v) s = .next (ackDetect v s) :=
  congrArg _ (if_neg (by simp [h]))

theorem ackDetect_of_some (h : parseDec v = some c) (s : State) : ackDetect v s = { s with txRcv := .value c } := by
  simp only [ackDetect, h]

theorem ackDetect_of_none (h : parseDec v = none) (s : State) : ackDetect v s = { s with txRcv := .malformed } := by
  simp only [ackDetect, h]

theorem ackDetect_txRcv_eq_value_iff : (ackDetect v s).txRcv = .value c ↔ parseDec v = some c := by
  cases h : parseDec v with
  | none => simp [ackDetect_of_none h]
  | some d => simp [ackDetect_of_some h]

/-- The detector ignores the other five classes. -/
theorem exec_line_of_txWait (h : s.role = .txWait) (l : Bytes) :
    ∀ i ∈ [Instr.lineStx l, .lineEtx l, .lineEnq l, .lineAck l, .lineOther l], exec i s = .next s := by
  have hrx : s.role ≠ .rx := by simp [h]
  simp only [List.forall_mem_cons]
  exact ⟨congrArg _ (if_neg hrx), congrArg _ (if_neg hrx), congrArg _ (if_neg hrx), congrArg _ (if_neg hrx),
    congrArg _ (if_neg hrx), nofun⟩

/-- A line is of class ACKV, or of one of the other five (R71). -/
theorem isAckv_cases (cfg : Config) (l : Bytes) :
    (isAckv cfg l = true ∧ ∃ v, classify cfg l = .lineAckv l v) ∨
      (isAckv cfg l = false ∧
        classify cfg l ∈ [Instr.lineStx l, .lineEtx l, .lineEnq l, .lineAck l, .lineOther l]) := by
  rcases classify_cases cfg l with h | h | h | h | ⟨v, h⟩ | h <;> simp [isAckv, h]

theorem route_of_not_isAckv (hrole : s.role = .txWait) {l : Bytes} (h : isAckv s.cfg l = false) : route l s = s := by
  rcases isAckv_cases s.cfg l with ⟨hackv, -⟩ | ⟨-, hmem⟩
  · simp [h] at hackv
  · have he := exec_line_of_txWait hrole l _ hmem
    rw [exec_classify] at he
    exact Host.Outcome.next.inj he

theorem routeAll_of_not_isAckv (hrole : s.role = .txWait) (h : ∀ l ∈ ls, isAckv s.cfg l = false) :
    routeAll ls s = s := by
  induction ls with
  | nil => rfl
  | cons l ls ih =>
    rw [List.forall_mem_cons] at h
    obtain ⟨hl, hls⟩ := h
    rw [routeAll_cons, route_of_not_isAckv hrole hl, ih hls]

theorem route_of_ackv (hrole : s.role = .txWait) {l : Bytes} (h : classify s.cfg l = .lineAckv l v) :
    route l s = ackDetect v s := by
  have he := exec_lineAckv_of_txWait hrole l v
  rw [← h, exec_classify] at he
  exact Host.Outcome.next.inj he

/-- The last line of class ACKV decides what was received, whatever the lines before it (R195). -/
theorem routeAll_of_last_ackv (hrole : s.role = .txWait) {l : Bytes} (hl : classify s.cfg l = .lineAckv l v)
    (before : List Bytes) {after : List Bytes} (hafter : ∀ x ∈ after, isAckv s.cfg x = false) :
    routeAll (before ++ l :: after) s = ackDetect v s := by
  obtain ⟨r, e⟩ := routeAll_of_txWait hrole before
  calc routeAll (before ++ l :: after) s
    _ = routeAll after (route l { s with txRcv := r }) := by rw [routeAll_append, e, routeAll_cons]
    _ = routeAll after (ackDetect v s) := by rw [route_of_ackv (s := { s with txRcv := r }) hrole hl]; rfl
    _ = ackDetect v s := routeAll_of_not_isAckv hrole hafter

/-- Either no line is of class ACKV, or there is a last one. -/
theorem forall_not_isAckv_or_exists_last (cfg : Config) (ls : List Bytes) :
    (∀ l ∈ ls, isAckv cfg l = false) ∨ ∃ before l v after, ls = before ++ l :: after ∧
      classify cfg l = .lineAckv l v ∧ ∀ x ∈ after, isAckv cfg x = false := by
  induction ls with
  | nil => exact .inl nofun
  | cons l ls ih =>
    rcases ih with hls | ⟨before, k, v, after, rfl, hk, hafter⟩
    · rcases isAckv_cases cfg l with ⟨-, v, hl⟩ | ⟨hl, -⟩
      · exact .inr ⟨[], l, v, ls, rfl, hl, hls⟩
      · exact .inl (List.forall_mem_cons.2 ⟨hl, hls⟩)
    · exact .inr ⟨l :: before, k, v, after, rfl, hk, hafter⟩

/-- What a delivery of lines leaves received, when nothing was received before it. -/
theorem routeAll_txRcv_eq_value_iff (hrole : s.role = .txWait) (hnone : s.txRcv = .none) :
    (routeAll ls s).txRcv = .value c ↔ lastAckIs s.cfg ls c := by
  constructor
  · intro h
    rcases forall_not_isAckv_or_exists_last s.cfg ls with hls | ⟨before, l, v, after, rfl, hl, hafter⟩
    · rw [routeAll_of_not_isAckv hrole hls, hnone] at h
      cases h
    · rw [routeAll_of_last_ackv hrole hl before hafter, ackDetect_txRcv_eq_value_iff] at h
      exact ⟨before, l, v, after, rfl, hl, h, hafter⟩
  · rintro ⟨before, l, v, after, rfl, hl, hv, hafter⟩
    rw [routeAll_of_last_ackv hrole hl before hafter]
    exact ackDetect_txRcv_eq_value_iff.2 hv

theorem not_lastAckIs_nil (cfg : Config) (c : U32) : ¬ lastAckIs cfg [] c := by simp [lastAckIs]

/-! ### When an operation reports success (R200)

Only `finish(1)` does, and only the evaluation calls it. -/

/-- `SEND_DONE(1)` is in the output list. -/
def ReportsSuccess (s : State) : Prop := .sendDone true ∈ s.events

theorem reportsSuccess_congr (h : u.events = s.events) : ReportsSuccess u ↔ ReportsSuccess s := by
  simp only [ReportsSuccess, h]

theorem reportsSuccess_startAttempt_iff (s : State) : ReportsSuccess (startAttempt s) ↔ ReportsSuccess s := by
  simp [ReportsSuccess, attemptEvents, lineEvent]

theorem reportsSuccess_finish_iff (ok : Bool) (s : State) :
    ReportsSuccess (finish ok s) ↔ ReportsSuccess s ∨ ok = true := by
  simp [finish_eq, ReportsSuccess, burstEvents, lineEvent]

theorem reportsSuccess_attemptFailed_iff (s : State) : ReportsSuccess (attemptFailed s) ↔ ReportsSuccess s := by
  rcases attemptFailed_cases s with ⟨-, e⟩ | ⟨-, e⟩
  · rw [e, reportsSuccess_startAttempt_iff]
  · rw [e, reportsSuccess_finish_iff]
    simp

theorem reportsSuccess_senderEvaluate_iff (s : State) :
    ReportsSuccess (senderEvaluate s) ↔ ReportsSuccess s ∨ s.txRcv = .value s.txExp := by
  rcases senderEvaluate_cases s with ⟨hnone, e⟩ | ⟨hmatch, e⟩ | ⟨⟨-, hne⟩, e⟩
  · rw [e]
    simp [hnone]
  · rw [e, reportsSuccess_finish_iff]
    simp [hmatch]
  · rw [e, reportsSuccess_attemptFailed_iff]
    simp [hne]

theorem reportsSuccess_senderTick_iff (s : State) : ReportsSuccess (senderTick s) ↔ ReportsSuccess s := by
  rcases senderTick_cases s with ⟨-, e⟩ | ⟨-, e⟩
  · rw [e]
    rfl
  · rw [e, reportsSuccess_attemptFailed_iff]
    rfl

theorem reportsSuccess_senderStart_iff (m : Bytes) (s : State) :
    ReportsSuccess (senderStart m s) ↔ ReportsSuccess s := by
  cases hport : s.portOpen with
  | true =>
    rw [senderStart_of_open hport, reportsSuccess_startAttempt_iff]
    rfl
  | false =>
    rw [senderStart_of_closed hport]
    simp [ReportsSuccess]

theorem reportsSuccess_senderCancel_iff (s : State) : ReportsSuccess (senderCancel s) ↔ ReportsSuccess s := by
  cases hrole : s.role with
  | rx => rw [senderCancel_of_rx hrole]
  | txWait =>
    rw [senderCancel_of_txWait hrole, reportsSuccess_finish_iff]
    simp

theorem reportsSuccess_afterOpen_iff (n : Nat) (ok : Bool) (rest : List OpenOutcome) (s : State) :
    ReportsSuccess (afterOpen n ok rest s) ↔ ReportsSuccess s := by
  cases ok <;> simp [ReportsSuccess, afterOpen, openEvent]

/-- The session a reconnect aborts is reported as failed (R204). -/
theorem reportsSuccess_beforeReopen_iff (s : State) : ReportsSuccess (beforeReopen s) ↔ ReportsSuccess s := by
  rw [beforeReopen_eq]
  cases s.role <;> simp [ReportsSuccess]

theorem reportsSuccess_reconnect_iff (s : State) : ReportsSuccess (reconnect s) ↔ ReportsSuccess s := by
  obtain ⟨n, ok, rest, -, -, e⟩ := reconnect_cases s
  rw [e, reportsSuccess_afterOpen_iff, reportsSuccess_beforeReopen_iff]

theorem reportsSuccess_monitorTick_iff (v : Levels) (s : State) :
    ReportsSuccess (monitorTick v s) ↔ ReportsSuccess s := by
  obtain ⟨p, i, -, -, e | ⟨-, n, ok, rest, -, e⟩ | ⟨-, n, ok, rest, -, e⟩ | ⟨-, e⟩⟩ := monitorTick_all v s
  · rw [e]
    rfl
  · rw [e, reportsSuccess_afterOpen_iff]
    rfl
  · rw [e, reportsSuccess_afterOpen_iff, reportsSuccess_beforeReopen_iff]
    rfl
  · rw [e]
    rfl

theorem reportsSuccess_receiverWrite_iff (l : Bytes) (s : State) :
    ReportsSuccess (receiverWrite l s) ↔ ReportsSuccess s := by
  simp [ReportsSuccess, lineEvent]

theorem reportsSuccess_processing_iff (s : State) : ReportsSuccess (processing s) ↔ ReportsSuccess s := by
  rw [processing, reportsSuccess_congr (setRxst_events _ _), reportsSuccess_receiverWrite_iff]

theorem reportsSuccess_endFrame_iff (s : State) : ReportsSuccess (endFrame s) ↔ ReportsSuccess s :=
  reportsSuccess_congr (setRxst_events _ _)

theorem LineStep.reportsSuccess_iff (h : LineStep s u) : ReportsSuccess u ↔ ReportsSuccess s := by
  cases h with
  | ignored => rfl
  | begun => exact reportsSuccess_congr (setRxst_events _ _)
  | appended => rfl
  | acknowledged => rw [reportsSuccess_processing_iff, reportsSuccess_congr (setRxst_events _ _)]
  | announced => exact reportsSuccess_receiverWrite_iff _ s
  | delivered =>
    rw [reportsSuccess_endFrame_iff]
    simp [ReportsSuccess]
  | aborted => exact reportsSuccess_endFrame_iff s
  | received => rfl

theorem reportsSuccess_route_iff (l : Bytes) (s : State) : ReportsSuccess (route l s) ↔ ReportsSuccess s := by
  cases hrole : s.role with
  | rx =>
    obtain ⟨hstep, -⟩ := route_cases l (leaveProcessing_rxst_ne s)
    rw [route_leaveProcessing hrole, hstep.reportsSuccess_iff, leaveProcessing]
    split
    · exact reportsSuccess_processing_iff s
    · rfl
  | txWait =>
    obtain ⟨r, e⟩ := route_of_txWait hrole l
    rw [e]
    rfl

theorem reportsSuccess_routeAll_iff (ls : List Bytes) (s : State) :
    ReportsSuccess (routeAll ls s) ↔ ReportsSuccess s := by
  induction ls generalizing s with
  | nil => rfl
  | cons l ls ih => rw [routeAll_cons, ih, reportsSuccess_route_iff]

/-- A delivery reports success when a session waits and the last acknowledgement matches (R195, R196). -/
theorem reportsSuccess_deliver_iff (hs : ¬ ReportsSuccess s) (hnone : s.txRcv = .none) (ls : List Bytes) :
    ReportsSuccess (endDelivery (routeAll ls s)) ↔ s.role = .txWait ∧ lastAckIs s.cfg ls s.txExp := by
  obtain ⟨-, hrole', -⟩ := routeAll_frame ls s
  rw [endDelivery, hrole']
  split
  · next hrole =>
    have hexp : (routeAll ls s).txExp = s.txExp := by
      obtain ⟨r, e⟩ := routeAll_of_txWait hrole ls
      rw [e]
    rw [reportsSuccess_senderEvaluate_iff, reportsSuccess_routeAll_iff, hexp,
      routeAll_txRcv_eq_value_iff hrole hnone]
    simp [hs, hrole]
  · next hrole => simp [reportsSuccess_routeAll_iff, hs, hrole]

/-! ### When a step reports success -/

theorem nextLines_of_not_chunk {b : Byte} {o : Bytes} {os : List OpenOutcome} {rest : List Input}
    (hi : s.inputs = ⟨.command b o, os⟩ :: rest) (h : ∀ data, decodeCommand b o ≠ .rxChunk data) :
    nextLines s = [] := by
  -- `h` takes the second branch of the match on the command
  simp only [nextLines, hi]

/-- The first input of `s` reports success when it delivers the matching acknowledgement. -/
theorem reportsSuccess_of_stepEffect {tr : Transaction} {os : List OpenOutcome} {rest : List Input}
    (h : Invariants s) (hi : s.inputs = ⟨tr, os⟩ :: rest) (he : StepEffect (beginOp os rest s) tr u) :
    ReportsSuccess u ↔ s.role = .txWait ∧ lastAckIs s.cfg (nextLines s) s.txExp := by
  have hbegin : ¬ ReportsSuccess (beginOp os rest s) := by simp [ReportsSuccess]
  have hcommand (hu : ReportsSuccess u ↔ ReportsSuccess (beginOp os rest s)) (hlines : nextLines s = []) :
      ReportsSuccess u ↔ s.role = .txWait ∧ lastAckIs s.cfg (nextLines s) s.txExp := by
    rw [hlines]
    simp [hu, hbegin, not_lastAckIs_nil]
  have hdropped (hclosed : s.portOpen = false) :
      ReportsSuccess (beginOp os rest s) ↔ s.role = .txWait ∧ lastAckIs s.cfg (nextLines s) s.txExp := by
    simp [hbegin, h.closed hclosed]
  cases he with
  | reset hd => exact hcommand Iff.rfl (nextLines_of_not_chunk hi (by simp [hd]))
  | @chunk _ _ data hd =>
    rw [nextLines_of_chunk hi hd]
    exact reportsSuccess_deliver_iff (s := { beginOp os rest s with frag := (split s.frag data).2 }) hbegin
      h.txRcv_eq_none _
  | chunkDropped _ hclosed => exact hdropped hclosed
  | tick hd =>
    refine hcommand ?_ (nextLines_of_not_chunk hi (by simp [hd]))
    rw [reportsSuccess_monitorTick_iff]
    split
    · exact reportsSuccess_senderTick_iff _
    · rfl
  | relayed k a hd hsignal =>
    refine hcommand (by simp [ReportsSuccess]) (nextLines_of_not_chunk hi ?_)
    rcases hsignal with rfl | rfl | rfl | rfl | rfl | rfl <;> simp [hd]
  | notRelayed a hd hsignal =>
    refine hcommand Iff.rfl (nextLines_of_not_chunk hi ?_)
    rcases hsignal with rfl | rfl | rfl | rfl | rfl | rfl <;> simp [hd]
  | sent hd => exact hcommand (reportsSuccess_senderStart_iff _ _) (nextLines_of_not_chunk hi (by simp [hd]))
  | cancel hd => exact hcommand (reportsSuccess_senderCancel_iff _) (nextLines_of_not_chunk hi (by simp [hd]))
  | iofault hd =>
    refine hcommand ?_ (nextLines_of_not_chunk hi (by simp [hd]))
    split
    · exact reportsSuccess_reconnect_iff _
    · rfl
  | @line l =>
    rw [nextLines_of_line hi]
    exact reportsSuccess_deliver_iff (s := beginOp os rest s) hbegin h.txRcv_eq_none [l]
  | lineDropped _ hclosed => exact hdropped hclosed

/-! ### A quiet step of a waiting session (R201) -/

theorem unsignalled_append (es fs : List Event) : unsignalled (es ++ fs) = unsignalled es ++ unsignalled fs :=
  List.filter_append ..

theorem unsignalled_attemptEvents (c : Config) (m : Bytes) :
    unsignalled (attemptEvents c m) = attemptEvents c m := by
  simp [unsignalled, attemptEvents, lineEvent, List.filter_append]

theorem unsignalled_burstEvents (c : Config) (ok : Bool) :
    unsignalled (burstEvents c ++ [.sendDone ok]) = burstEvents c ++ [.sendDone ok] := by
  simp [unsignalled, burstEvents, lineEvent, List.filter_append]

theorem ticks_of_tick {v : Levels} (h : nextInstr s = some (.tick v)) : ticks s = 1 := by
  simp only [ticks, h]

theorem ticks_of_not_tick (h : ∀ v, nextInstr s ≠ some (.tick v)) : ticks s = 0 := by
  unfold ticks
  split
  · next v hv => exact absurd hv (h v)
  · rfl

theorem nextInstr_of_no_input (h : s.inputs = []) : nextInstr s = none := by
  simp only [nextInstr, h]

theorem nextInstr_of_line {l : Bytes} {os : List OpenOutcome} {rest : List Input} (hl : isLine l = true)
    (hi : s.inputs = ⟨.line l, os⟩ :: rest) : nextInstr s = some (classify s.cfg l) := by
  simp [nextInstr, hi, decode, hl]

theorem classify_ne_tick (cfg : Config) (l : Bytes) (v : Levels) : classify cfg l ≠ .tick v := by
  rcases classify_cases cfg l with h | h | h | h | ⟨w, h⟩ | h <;> simp [h]

theorem classify_ne_send (cfg : Config) (l m : Bytes) : classify cfg l ≠ .send m := by
  rcases classify_cases cfg l with h | h | h | h | ⟨w, h⟩ | h <;> simp [h]

/-- The registers that follow the attempts of a session. -/
def attemptRegs (s : State) : Role × Bytes × Nat × Nat := (s.role, s.txMsg, s.txIter, s.txWaitCnt)

theorem attemptRegs_eq_iff : attemptRegs u = attemptRegs s ↔
    u.role = s.role ∧ u.txMsg = s.txMsg ∧ u.txIter = s.txIter ∧ u.txWaitCnt = s.txWaitCnt := by
  simp [attemptRegs]

/-- While the port is open, the monitor touches no session but by a reconnect, which emits `CLOSE` (R242). -/
theorem monitorTick_of_not_close (v : Levels) (hopen : s.portOpen = true) (h : .close ∉ (monitorTick v s).events) :
    attemptRegs (monitorTick v s) = attemptRegs s ∧ (monitorTick v s).events = s.events := by
  obtain ⟨p, i, -, -, e | ⟨hclosed, -⟩ | ⟨-, n, ok, rest, -, e⟩ | ⟨-, e⟩⟩ := monitorTick_all v s
  · rw [e]
    exact ⟨rfl, rfl⟩
  · simp [hopen] at hclosed
  · rw [e] at h
    exact absurd (close_mem_afterOpen_beforeReopen n ok rest _) h
  · rw [e]
    exact ⟨rfl, rfl⟩

/-- Without a line of class ACKV the evaluation finds nothing received (R196). -/
theorem deliver_of_not_isAckv (hrole : s.role = .txWait) (hnone : s.txRcv = .none)
    (h : ∀ l ∈ ls, isAckv s.cfg l = false) : endDelivery (routeAll ls s) = s := by
  rw [routeAll_of_not_isAckv hrole h, endDelivery, if_pos hrole, senderEvaluate, hnone]

/-- What a step can do to a waiting session that its input leaves alone: hold it, or pass one tick to its deadline. -/
inductive QuietStep (s u : State) : Prop where
  | held : ticks s = 0 → attemptRegs u = attemptRegs s → unsignalled u.events = [] → QuietStep s u
  | ticked (os : List OpenOutcome) (rest : List Input) : ticks s = 1 →
      attemptRegs u = attemptRegs (senderTick (beginOp os rest s)) →
      u.events = (senderTick (beginOp os rest s)).events → QuietStep s u

theorem quietStep_of_stepEffect {tr : Transaction} {os : List OpenOutcome} {rest : List Input} (h : Invariants s)
    (hrole : s.role = .txWait) (hq : quiet s) (hi : s.inputs = ⟨tr, os⟩ :: rest)
    (he : StepEffect (beginOp os rest s) tr u) (hclose : .close ∉ u.events) : QuietStep s u := by
  obtain ⟨hreset, hcancel, hiofault, hlines⟩ := hq
  obtain ⟨hopen, -⟩ := h.session hrole
  cases he with
  | reset hd => exact absurd (by rw [nextInstr_of_command hi, hd]) hreset
  | @chunk _ _ data hd =>
    rw [nextLines_of_chunk hi hd] at hlines
    have e := deliver_of_not_isAckv (s := { beginOp os rest s with frag := (split s.frag data).2 }) hrole
      (h.consumed hrole) hlines
    exact .held (ticks_of_not_tick (by simp [nextInstr_of_command hi, hd])) ((congrArg attemptRegs e).trans rfl)
      ((congrArg (unsignalled ·.events) e).trans rfl)
  | chunkDropped _ hclosed => simp [hopen] at hclosed
  | tick hd =>
    have hrole' : (beginOp os rest s).role = .txWait := hrole
    rw [if_pos hrole'] at hclose ⊢
    obtain ⟨hport, -⟩ := senderTick_port (beginOp os rest s)
    obtain ⟨hregs, hevents⟩ := monitorTick_of_not_close _ (hport.trans hopen) hclose
    exact .ticked os rest (ticks_of_tick (by rw [nextInstr_of_command hi, hd])) hregs hevents
  | relayed k a hd hsignal =>
    refine .held (ticks_of_not_tick ?_) rfl rfl
    rcases hsignal with rfl | rfl | rfl | rfl | rfl | rfl <;> simp [nextInstr_of_command hi, hd]
  | notRelayed a hd hsignal =>
    refine .held (ticks_of_not_tick ?_) rfl rfl
    rcases hsignal with rfl | rfl | rfl | rfl | rfl | rfl <;> simp [nextInstr_of_command hi, hd]
  | sent _ hrx => exact Role.noConfusion (hrole.symm.trans hrx)
  | cancel hd => exact absurd (by rw [nextInstr_of_command hi, hd]) hcancel
  | iofault hd => exact absurd (by rw [nextInstr_of_command hi, hd]) hiofault
  | @line l hl =>
    rw [nextLines_of_line hi] at hlines
    have e := deliver_of_not_isAckv (s := beginOp os rest s) hrole (h.consumed hrole) hlines
    exact .held (ticks_of_not_tick (by simp [nextInstr_of_line hl hi, classify_ne_tick]))
      ((congrArg attemptRegs e).trans rfl) ((congrArg (unsignalled ·.events) e).trans rfl)
  | lineDropped _ hclosed => simp [hopen] at hclosed

theorem quietStep_of_step (h : Invariants s) (hrole : s.role = .txWait) (hq : quiet s) (hstep : step s = .next u)
    (hclose : .close ∉ u.events) : QuietStep s u := by
  obtain ⟨-, ⟨hi, rfl⟩ | ⟨tr, os, rest, u, hi, he, -, rfl⟩⟩ := step_cases hstep
  · exact .held (ticks_of_not_tick (by simp [nextInstr_of_no_input hi])) rfl rfl
  · cases quietStep_of_stepEffect h hrole hq hi he hclose with
    | held hticks hregs hevents => exact .held hticks hregs hevents
    | ticked os rest hticks hregs hevents => exact .ticked os rest hticks hregs hevents

/-! ### The progress of a session that is never acknowledged (R201) -/

/-- After `n` ticks, with the output `es` in all, the send of `m` waits in its current attempt. The attempts before it
took `P_ACK_TICKS` ticks each. -/
structure StillWaits (m : Bytes) (n : Nat) (es : List Event) (t : State) : Prop where
  role : t.role = .txWait
  message : t.txMsg = m
  elapsed : n + t.cfg.ackTicks = t.txIter * t.cfg.ackTicks + t.txWaitCnt
  output : unsignalled es = (List.replicate t.txIter (attemptEvents t.cfg m)).flatten

/-- After `n` ticks, with the output `es` in all, the send of `m` has ended without an acknowledgement. -/
structure GaveUp (m : Bytes) (n : Nat) (es : List Event) (t : State) : Prop where
  role : t.role = .rx
  elapsed : n = t.cfg.maxAttempts * t.cfg.ackTicks
  output : unsignalled es = (List.replicate t.cfg.maxAttempts (attemptEvents t.cfg m)).flatten ++
    (burstEvents t.cfg ++ [.sendDone false])

section Progress

variable {n : Nat} {es fs : List Event}

theorem StillWaits.of_regs_eq (h : StillWaits m n es t) (hcfg : u.cfg = t.cfg)
    (hregs : attemptRegs u = attemptRegs t) (hout : unsignalled fs = unsignalled es) : StillWaits m n fs u := by
  obtain ⟨hrole, hmsg, hiter, hcnt⟩ := attemptRegs_eq_iff.1 hregs
  exact ⟨hrole.trans h.role, hmsg.trans h.message, by rw [hcfg, hiter, hcnt, h.elapsed],
    by rw [hout, hcfg, hiter, h.output]⟩

theorem GaveUp.of_regs_eq (h : GaveUp m n es t) (hcfg : u.cfg = t.cfg) (hregs : attemptRegs u = attemptRegs t) :
    GaveUp m n es u := by
  obtain ⟨hrole, -⟩ := attemptRegs_eq_iff.1 hregs
  exact ⟨hrole.trans h.role, by rw [hcfg, h.elapsed], by rw [hcfg, h.output]⟩

/-- At the deadline of the last attempt the session ends with as many attempts made as there may be (R198, R199). -/
theorem StillWaits.attemptFailed (h : StillWaits m n es t) (hmax : t.txIter ≤ t.cfg.maxAttempts)
    (hdeadline : t.txWaitCnt = t.cfg.ackTicks) (hnone : t.events = []) :
    StillWaits m n (es ++ (attemptFailed t).events) (attemptFailed t) ∨
      GaveUp m n (es ++ (attemptFailed t).events) (attemptFailed t) := by
  have helapsed : n = t.txIter * t.cfg.ackTicks := by
    have := h.elapsed
    omega
  rcases attemptFailed_cases t with ⟨-, e⟩ | ⟨hlast, e⟩
  · rw [e]
    refine .inl ⟨rfl, h.message, by simp [helapsed, Nat.add_mul], ?_⟩
    simp [hnone, unsignalled_append, unsignalled_attemptEvents, h.output, h.message, List.replicate_succ']
  · rw [e, finish_eq]
    have hiter : t.txIter = t.cfg.maxAttempts := Nat.le_antisymm hmax hlast
    refine .inr ⟨rfl, hiter ▸ helapsed, ?_⟩
    simp only [hnone, List.nil_append, unsignalled_append es, unsignalled_burstEvents, h.output, hiter]

/-- A tick counts towards the deadline, and at the deadline the attempt has failed (R197). -/
theorem StillWaits.senderTick (h : StillWaits m n es t) (hmax : t.txIter ≤ t.cfg.maxAttempts)
    (hnone : t.events = []) :
    StillWaits m (n + 1) (es ++ (senderTick t).events) (senderTick t) ∨
      GaveUp m (n + 1) (es ++ (senderTick t).events) (senderTick t) := by
  have hcounted : StillWaits m (n + 1) es { t with txWaitCnt := t.txWaitCnt + 1 } :=
    ⟨h.role, h.message, by have := h.elapsed; simp only; omega, h.output⟩
  rcases senderTick_cases t with ⟨-, e⟩ | ⟨hdeadline, e⟩
  · rw [e]
    exact .inl (hcounted.of_regs_eq rfl rfl (by simp [hnone]))
  · rw [e]
    exact hcounted.attemptFailed hmax hdeadline hnone

/-- One more quiet step. -/
theorem StillWaits.quietStep (h : StillWaits m n es t) (ht : Invariants t) (hq : QuietStep t u)
    (hcfg : u.cfg = t.cfg) :
    StillWaits m (n + ticks t) (es ++ u.events) u ∨ GaveUp m (n + ticks t) (es ++ u.events) u := by
  cases hq with
  | held hticks hregs hevents =>
    rw [hticks]
    exact .inl (h.of_regs_eq hcfg hregs (by rw [unsignalled_append, hevents, List.append_nil]))
  | ticked os rest hticks hregs hevents =>
    obtain ⟨-, -, hmax, -⟩ := ht.session h.role
    have hbegin : StillWaits m n es (beginOp os rest t) := { h with }
    obtain ⟨-, hcfg'⟩ := senderTick_port (beginOp os rest t)
    rw [hticks, hevents]
    exact (hbegin.senderTick hmax rfl).imp (·.of_regs_eq (hcfg.trans hcfg'.symm) hregs rfl)
      (·.of_regs_eq (hcfg.trans hcfg'.symm) hregs)

/-- A session that waits at the start of a run of quiet steps waits at its end, or has given up with its last step. -/
theorem StillWaits.waits (h : StillWaits m 0 fs s) (hs : Invariants s) (hw : Waits s n es t) :
    Invariants t ∧ t.cfg = s.cfg ∧ (StillWaits m n (fs ++ es) t ∨ GaveUp m n (fs ++ es) t) := by
  induction hw with
  | start => exact ⟨hs, rfl, .inl (by rwa [List.append_nil])⟩
  | @more n es t u _ hrole hq hstep hclose ih =>
    obtain ⟨ht, hcfg, hprogress⟩ := ih
    have hu : Invariants u := stepKeepsInvariant t u ht hstep
    obtain ⟨hcfg', -⟩ := configurationFixed t u hstep
    refine ⟨hu, hcfg'.trans hcfg, ?_⟩
    rcases hprogress with hwaits | hended
    · rw [← List.append_assoc]
      exact hwaits.quietStep ht (quietStep_of_step ht hrole hq hstep hclose) hcfg'
    · exact Role.noConfusion (hrole.symm.trans hended.role)

/-- The attempt that waits, and how long it has, from the ticks elapsed. -/
theorem StillWaits.attempt_eq (h : StillWaits m n es t) (ht : Invariants t) :
    n < t.cfg.maxAttempts * t.cfg.ackTicks ∧ t.txIter = n / t.cfg.ackTicks + 1 ∧
      t.txWaitCnt = n % t.cfg.ackTicks := by
  obtain ⟨-, hmin, hmax, hcnt⟩ := ht.session h.role
  obtain ⟨i, hi⟩ := Nat.exists_eq_add_of_le' hmin
  have helapsed := h.elapsed
  rw [hi, Nat.add_mul, Nat.one_mul] at helapsed
  have hn : t.txWaitCnt + t.cfg.ackTicks * i = n := by
    rw [Nat.mul_comm]
    omega
  obtain ⟨hdiv, hmod⟩ := (Nat.div_mod_unique (Nat.zero_lt_of_lt hcnt)).2 ⟨hn, hcnt⟩
  have hle : (i + 1) * t.cfg.ackTicks ≤ t.cfg.maxAttempts * t.cfg.ackTicks :=
    Nat.mul_le_mul_right _ (hi ▸ hmax)
  rw [Nat.add_mul, Nat.one_mul] at hle
  exact ⟨by omega, by rw [hi, hdiv], hmod.symm⟩

end Progress

/-! ### The step that takes a SEND (R190) -/

/-- Only a command is a SEND. -/
theorem inputs_of_nextInstr_send (h : nextInstr s = some (.send m)) :
    ∃ b o os rest, s.inputs = ⟨.command b o, os⟩ :: rest ∧ decodeCommand b o = .send m := by
  match hi : s.inputs with
  | [] => simp [nextInstr_of_no_input hi] at h
  | ⟨.command b o, os⟩ :: rest =>
    rw [nextInstr_of_command hi] at h
    exact ⟨b, o, os, rest, rfl, Option.some.inj h⟩
  | ⟨.line l, os⟩ :: rest =>
    by_cases hl : isLine l = true
    · rw [nextInstr_of_line hl hi] at h
      exact absurd (Option.some.inj h) (classify_ne_send _ l m)
    · simp [nextInstr, hi, decode, hl] at h

/-- What `complete` accepts is its result with the oracle gone (R100). -/
theorem eq_endOp_of_complete (h : complete (.next u) = .next t) : t = endOp u := by
  simp only [complete] at h
  split at h
  · exact (Host.Outcome.next.inj h).symm
  · cases h

/-- A SEND that a step accepts on an open port starts the first attempt. -/
theorem stillWaits_of_send (hopen : s.portOpen = true) (hsend : nextInstr s = some (.send m))
    (hstep : step s = .next t) : StillWaits m 0 t.events t := by
  obtain ⟨b, o, os, rest, hi, hd⟩ := inputs_of_nextInstr_send hsend
  obtain ⟨hvalid, -⟩ := step_cases hstep
  rw [step_of_command hvalid hi, hd] at hstep
  cases hrole : (beginOp os rest s).role with
  | txWait =>
    rw [exec_send_of_txWait hrole] at hstep
    cases hstep
  | rx =>
    have hopen' : (beginOp os rest s).portOpen = true := hopen
    rw [exec_send_of_rx hrole, senderStart_of_open hopen'] at hstep
    rw [eq_endOp_of_complete hstep]
    exact ⟨rfl, rfl, by simp, by simp [unsignalled_attemptEvents]⟩

end Machine

/-- Settles O32: a step is idle, or the effect of its instruction. -/
theorem successExactlyOnMatch : Obligations.SuccessExactlyOnMatch := by
  intro s t h hstep
  obtain ⟨-, ⟨hi, rfl⟩ | ⟨tr, os, rest, u, hi, he, -, rfl⟩⟩ := step_cases hstep
  · have hlines : nextLines s = [] := by simp only [nextLines, hi]
    simp [hlines, not_lastAckIs_nil]
  · exact (reportsSuccess_congr (endOp_events u)).trans (reportsSuccess_of_stepEffect h hi he)

/-- Settles O31: a SEND begins a session that waits, and quiet steps keep it waiting until it has made all its
attempts. -/
theorem retryBound : Obligations.RetryBound := by
  intro s₀ s t m n es h hopen hsend hstep hw
  have hs : Invariants s := stepKeepsInvariant s₀ s h hstep
  obtain ⟨ht, hcfg, hwaits | hended⟩ := (stillWaits_of_send hopen hsend hstep).waits hs hw
  · obtain ⟨hlt, hiter, hcnt⟩ := hwaits.attempt_eq ht
    have hout := hwaits.output
    rw [hiter] at hout
    rw [hcfg] at hlt hiter hcnt hout
    exact ⟨hlt.le, fun _ => ⟨hwaits.role, hiter, hcnt, hout⟩, fun heq => absurd heq hlt.ne⟩
  · have hn := hended.elapsed
    have hout := hended.output
    rw [hcfg] at hn
    rw [hcfg, burstEvents_append_eq_ending] at hout
    exact ⟨hn.le, fun hlt => absurd hn hlt.ne, fun _ => ⟨hended.role, hout⟩⟩

/-- Settles O20: the detector reads the value of an ACKV line, and ignores the rest. -/
theorem ackDetectorEffect : Obligations.AckDetectorEffect := by
  intro s l v hrole
  refine ⟨fun c hc => ?_, fun hnone => ?_, fun w hw => ?_, exec_line_of_txWait hrole l⟩
  · rw [exec_lineAckv_of_txWait hrole, ackDetect_of_some hc]
  · rw [exec_lineAckv_of_txWait hrole, ackDetect_of_none hnone]
  · have hmalformed : ∀ w ∈ ([[], [0x2D, 0x31], [0x34, 0x32, 0x39, 0x34, 0x39, 0x36, 0x37, 0x32, 0x39, 0x36]] :
        List Bytes), parseDec w = none := by decide
    rw [exec_lineAckv_of_txWait hrole, ackDetect_of_none (hmalformed w hw)]

/-- Settles O27: SEND on an open port is the first attempt. -/
theorem sendStartsAttempt : Obligations.SendStartsAttempt := by
  intro s m hrole hopen
  rw [exec_send_of_rx hrole, senderStart_of_open hopen]
  rfl

/-- Settles O28, by the two ways SEND does not start a session. -/
theorem sendPreconditions : Obligations.SendPreconditions := by
  refine fun s m => ⟨fun hrole hclosed => ?_, fun hrole => exec_send_of_txWait hrole m⟩
  rw [exec_send_of_rx hrole, senderStart_of_closed hclosed]
  rfl

/-- Settles O29, by the two ways CANCEL goes. -/
theorem cancelEffect : Obligations.CancelEffect := by
  refine fun s => ⟨fun hrole => ?_, fun hrole => ?_⟩
  · rw [exec_cancel, senderCancel_of_txWait hrole, finish_eq_finished]
  · rw [exec_cancel, senderCancel_of_rx hrole]

end Sys2Proof
end

section
/-! Proofs of the statements of 44_port_monitor.md (R230 to R244): the ways of a tick between polls and at a poll, and
that no step closes the port twice. -/

namespace Sys2Proof

open Machine Claims

namespace Machine

variable {s u : State} {v : Levels} {n : Nat} {ok : Bool} {rest : List OpenOutcome}

/-! ### The tick (R231, R232) -/

/-- The idle counter in the words of the statements (R232). -/
theorem countIdle_eq_idleAfter (s : State) : countIdle s = { s with idleCnt := idleAfter s } := countIdle_eq s

/-- The counters at a poll: `POLL_CNT` reloaded, `IDLE_CNT` counted (R231). -/
def counted (s : State) : State := { s with pollCnt := s.cfg.pollTicks - 1, idleCnt := idleAfter s }

theorem monitorTick_of_ne (h : s.pollCnt ≠ 0) (v : Levels) :
    monitorTick v s = { s with pollCnt := s.pollCnt - 1, idleCnt := idleAfter s } := by
  rcases monitorTick_cases v s with ⟨-, e⟩ | ⟨hzero, -⟩
  · rw [e, countIdle_eq_idleAfter]
  · exact absurd hzero h

theorem monitorTick_of_zero (h : s.pollCnt = 0) (v : Levels) : monitorTick v s = poll v (counted s) := by
  rcases monitorTick_cases v s with ⟨hne, -⟩ | ⟨-, e⟩
  · exact absurd h hne
  · rw [e, countIdle_eq_idleAfter, counted]

/-- A closed port is not idle (R232). -/
theorem idleAfter_of_closed (h : s.portOpen = false) : idleAfter s = s.idleCnt := if_neg (by simp [h])

/-! ### The poll (R233, R236, R238) -/

theorem fallingEdge_iff_falls (snap levels : Levels) : fallingEdge snap levels = true ↔ falls snap levels := by
  simp [fallingEdge, falls, Levels.cts, Levels.dsr, Levels.rlsd, or_assoc]

theorem poll_of_closed (h : s.portOpen = false) (v : Levels) : poll v s = openPort s := if_neg (by simp [h])

theorem poll_of_falls (hopen : s.portOpen = true) (h : falls s.snap v) : poll v s = reconnect { s with snap := v } := by
  have hedge := (fallingEdge_iff_falls s.snap v).2 h
  simp [poll, hopen, hedge]

/-- A due watchdog reconnects, with a falling edge or without one (R238). -/
theorem poll_of_due (hopen : s.portOpen = true) (hrole : s.role = .rx) (hidle : s.cfg.idleTicks ≤ s.idleCnt)
    (v : Levels) : poll v s = reconnect { s with snap := v } := by
  simp [poll, hopen, hrole, hidle]

theorem poll_of_quiet (hopen : s.portOpen = true) (h : ¬ falls s.snap v)
    (hidle : s.role = .txWait ∨ s.idleCnt < s.cfg.idleTicks) : poll v s = { s with snap := v } := by
  have hedge : ¬ fallingEdge s.snap v = true := mt (fallingEdge_iff_falls s.snap v).1 h
  have hdue : ¬ (s.role = .rx ∧ s.cfg.idleTicks ≤ s.idleCnt) := by
    rintro ⟨hrx, hle⟩
    rcases hidle with hwait | hlt
    · exact Role.noConfusion (hrx.symm.trans hwait)
    · omega
  simp [poll, hopen, hedge, hdue]

/-- A reconnect at a poll leaves nothing of the idle counter (R240). -/
theorem reconnect_counted (v : Levels) (hway : Opens s.cfg.openMaxTries s.oracle n ok rest) :
    reconnect { counted s with snap := v } =
      reconnected { s with pollCnt := s.cfg.pollTicks - 1, snap := v } n ok rest :=
  reconnect_eq_reconnected (s := { counted s with snap := v }) hway

/-! ### The `CLOSE` events of an operation (R286)

Only a reconnect closes the port. -/

/-- How many `CLOSE` events are in the output list. -/
def closes (s : State) : Nat := s.events.count .close

theorem closes_congr (h : u.events = s.events) : closes u = closes s := by rw [closes, h, closes]

theorem closes_emits (es : List Event) (s : State) : closes (emits es s) = closes s + es.count .close :=
  List.count_append

theorem closes_emits_of_not_mem {es : List Event} (h : .close ∉ es) (s : State) : closes (emits es s) = closes s := by
  rw [closes_emits, List.count_eq_zero_of_not_mem h, Nat.add_zero]

theorem closes_startAttempt (s : State) : closes (startAttempt s) = closes s :=
  closes_emits_of_not_mem (by simp [attemptEvents, lineEvent]) s

theorem closes_finish (ok : Bool) (s : State) : closes (finish ok s) = closes s := by
  rw [finish_eq]
  exact closes_emits_of_not_mem (by simp [burstEvents, lineEvent]) s

theorem closes_attemptFailed (s : State) : closes (attemptFailed s) = closes s := by
  rcases attemptFailed_cases s with ⟨-, e⟩ | ⟨-, e⟩
  · rw [e, closes_startAttempt]
  · rw [e, closes_finish]

theorem closes_endDelivery (s : State) : closes (endDelivery s) = closes s := by
  unfold endDelivery
  split
  · rcases senderEvaluate_cases s with ⟨-, e⟩ | ⟨-, e⟩ | ⟨-, e⟩
    · rw [e]
    · rw [e, closes_finish]
    · rw [e, closes_attemptFailed]
  · rfl

theorem closes_senderTick (s : State) : closes (senderTick s) = closes s := by
  rcases senderTick_cases s with ⟨-, e⟩ | ⟨-, e⟩
  · rw [e]
    rfl
  · rw [e, closes_attemptFailed]
    rfl

theorem closes_senderStart (m : Bytes) (s : State) : closes (senderStart m s) = closes s := by
  cases hport : s.portOpen with
  | true =>
    rw [senderStart_of_open hport, closes_startAttempt]
    rfl
  | false =>
    rw [senderStart_of_closed hport]
    exact closes_emits_of_not_mem (by simp) s

theorem closes_senderCancel (s : State) : closes (senderCancel s) = closes s := by
  cases hrole : s.role with
  | rx => rw [senderCancel_of_rx hrole]
  | txWait => rw [senderCancel_of_txWait hrole, closes_finish]

theorem closes_receiverWrite (l : Bytes) (s : State) : closes (receiverWrite l s) = closes s :=
  closes_emits_of_not_mem (by simp [lineEvent]) s

theorem closes_setRxst (r : RxState) (s : State) : closes (setRxst r s) = closes s := closes_congr (setRxst_events r s)

theorem closes_processing (s : State) : closes (processing s) = closes s := by
  rw [processing, closes_setRxst, closes_receiverWrite]

theorem closes_endFrame (s : State) : closes (endFrame s) = closes s := closes_setRxst .idle (clearFrame s)

theorem LineStep.closes_eq (h : LineStep s u) : closes u = closes s := by
  cases h with
  | ignored => rfl
  | begun => exact closes_setRxst .receiving (clearFrame s)
  | appended => rfl
  | acknowledged => rw [closes_processing, closes_setRxst]
  | announced => exact closes_receiverWrite _ s
  | delivered =>
    rw [closes_endFrame]
    exact closes_emits_of_not_mem (by simp) s
  | aborted => exact closes_endFrame s
  | received => rfl

theorem closes_route (l : Bytes) (s : State) : closes (route l s) = closes s := by
  cases hrole : s.role with
  | rx =>
    obtain ⟨hstep, -⟩ := route_cases l (leaveProcessing_rxst_ne s)
    rw [route_leaveProcessing hrole, hstep.closes_eq, leaveProcessing]
    split
    · exact closes_processing s
    · rfl
  | txWait =>
    obtain ⟨r, e⟩ := route_of_txWait hrole l
    rw [e]
    rfl

theorem closes_routeAll (ls : List Bytes) (s : State) : closes (routeAll ls s) = closes s := by
  induction ls generalizing s with
  | nil => rfl
  | cons l ls ih => rw [routeAll_cons, ih, closes_route]

theorem closes_deliver (ls : List Bytes) (s : State) : closes (endDelivery (routeAll ls s)) = closes s := by
  rw [closes_endDelivery, closes_routeAll]

theorem closes_afterOpen (n : Nat) (ok : Bool) (rest : List OpenOutcome) (s : State) :
    closes (afterOpen n ok rest s) = closes s :=
  closes_emits_of_not_mem (by cases ok <;> simp [openEvent]) s

theorem closes_beforeReopen (s : State) : closes (beforeReopen s) = closes s + 1 := by
  rw [beforeReopen_eq]
  refine (closes_emits _ s).trans ?_
  cases s.role <;> rfl

/-! ### At most one reconnect (R233, R286) -/

/-- From `s` to `u` the port is not closed, or it is closed once and no session is left. -/
def ReconnectsOnce (s u : State) : Prop := closes u = closes s ∨ (closes u = closes s + 1 ∧ u.role = .rx)

theorem reconnectsOnce_afterOpen_beforeReopen (n : Nat) (ok : Bool) (rest : List OpenOutcome) (s : State) :
    ReconnectsOnce s (afterOpen n ok rest (beforeReopen s)) :=
  .inr ⟨by rw [closes_afterOpen, closes_beforeReopen], beforeReopen_role s⟩

theorem reconnectsOnce_reconnect (s : State) : ReconnectsOnce s (reconnect s) := by
  obtain ⟨n, ok, rest, -, -, e⟩ := reconnect_cases s
  rw [e]
  exact reconnectsOnce_afterOpen_beforeReopen n ok rest s

theorem reconnectsOnce_monitorTick (v : Levels) (s : State) : ReconnectsOnce s (monitorTick v s) := by
  obtain ⟨p, i, -, -, e | ⟨-, n, ok, rest, -, e⟩ | ⟨-, n, ok, rest, -, e⟩ | ⟨-, e⟩⟩ := monitorTick_all v s
  · rw [e]
    exact .inl rfl
  · rw [e]
    exact .inl (closes_afterOpen n ok rest _)
  · rw [e]
    exact reconnectsOnce_afterOpen_beforeReopen n ok rest { s with pollCnt := p, idleCnt := i, snap := v }
  · rw [e]
    exact .inl rfl

theorem reconnectsOnce_tick (v : Levels) (s : State) :
    ReconnectsOnce s (monitorTick v (if s.role = .txWait then senderTick s else s)) := by
  split
  · simpa only [ReconnectsOnce, closes_senderTick] using reconnectsOnce_monitorTick v (senderTick s)
  · exact reconnectsOnce_monitorTick v s

theorem StepEffect.reconnectsOnce {tr : Transaction} (he : StepEffect s tr u) : ReconnectsOnce s u := by
  cases he with
  | reset => exact .inl rfl
  | chunk => exact .inl (closes_deliver _ _)
  | chunkDropped => exact .inl rfl
  | tick => exact reconnectsOnce_tick _ s
  | relayed => exact .inl (closes_emits_of_not_mem (by simp) s)
  | notRelayed => exact .inl rfl
  | sent => exact .inl (closes_senderStart _ s)
  | cancel => exact .inl (closes_senderCancel s)
  | iofault =>
    split
    · exact reconnectsOnce_reconnect s
    · exact .inl rfl
  | @line l => exact .inl (closes_deliver [l] s)
  | lineDropped => exact .inl rfl

/-- An operation begins with no event, so its output holds every `CLOSE` it emits. -/
theorem ReconnectsOnce.of_no_events (h : ReconnectsOnce s u) (hnone : s.events = []) :
    u.events.count .close ≤ 1 ∧ (.close ∈ u.events → u.role = .rx) := by
  have hzero : closes s = 0 := by simp [closes, hnone]
  rw [← List.count_pos_iff]
  rcases h with hsame | ⟨honce, hrole⟩
  · rw [closes, hzero] at hsame
    exact ⟨by omega, fun hpos => by omega⟩
  · rw [closes, hzero] at honce
    exact ⟨by omega, fun _ => hrole⟩

end Machine

/-- Settles O35: the poll sees the edge, and the reconnect goes the way of its outcomes. -/
theorem fallingEdgeReconnects : Obligations.FallingEdgeReconnects := by
  intro s v n ok rest hpoll hopen hfalls hway
  rw [monitorTick_of_zero hpoll, poll_of_falls (s := counted s) hopen hfalls, reconnect_counted v hway]

/-- Settles O36: the watchdog reads the counter after this tick's count. -/
theorem watchdogReconnects : Obligations.WatchdogReconnects := by
  intro s v n ok rest hpoll hopen hrole _ hidle hway
  rw [monitorTick_of_zero hpoll, poll_of_due (s := counted s) hopen hrole hidle, reconnect_counted v hway]

/-- Settles O37: the idle counter of a closed port does not count, and the open loop goes the way of its outcomes. -/
theorem pollOpensClosedPort : Obligations.PollOpensClosedPort := by
  intro s v n ok rest hpoll hclosed hway
  rw [monitorTick_of_zero hpoll, poll_of_closed (s := counted s) hclosed,
    openPort_eq_afterOpen (s := counted s) hway, afterOpen_eq_afterOpening, counted, idleAfter_of_closed hclosed]

/-- Settles O55, by the effects of a step, each of which reconnects at most once. -/
theorem atMostOneReconnect : Obligations.AtMostOneReconnect := by
  intro s t hstep
  obtain ⟨-, ⟨-, rfl⟩ | ⟨tr, os, rest, u, -, he, -, rfl⟩⟩ := step_cases hstep
  · exact ⟨Nat.zero_le 1, nofun⟩
  · exact he.reconnectsOnce.of_no_events rfl

/-- Settles O33, by the tick between polls. -/
theorem tickBetweenPolls : Obligations.TickBetweenPolls :=
  fun _ v hpoll => monitorTick_of_ne hpoll v

/-- Settles O34: without a falling edge or a due watchdog the poll only takes the levels. -/
theorem quietPoll : Obligations.QuietPoll := by
  intro s v hpoll hopen hfalls hidle
  rw [monitorTick_of_zero hpoll, poll_of_quiet (s := counted s) hopen hfalls hidle, counted]

end Sys2Proof
end

section
/-! Proof of the statement of 45_event_notifier.md (R270 to R274): the six SIGNAL rows are one operation over the signal
kind, which relays every kind but RING while the port is open. -/

namespace Sys2Proof

open Machine Claims

namespace Machine

variable {s : State} {k : SignalKind}

@[simp] theorem notify_ring (a : Bool) (s : State) : notify .ring a s = s := rfl

theorem notify_of_ne_ring (h : k ≠ .ring) (a : Bool) (s : State) : notify k a s = emit (.notify k a) s := by
  cases k with
  | ring => exact absurd rfl h
  | breakSignal | clearToSend | dataSetReady | error | rlsd => rfl

theorem signal_of_closed (h : s.portOpen = false) (k : SignalKind) (a : Bool) : signal k a s = s := if_neg (by simp [h])

theorem signal_of_open (h : s.portOpen = true) (k : SignalKind) (a : Bool) : signal k a s = notify k a s := if_pos h

theorem exec_signalInstr (k : SignalKind) (a : Bool) (s : State) : exec (k.instr a) s = .next (signal k a s) := by
  cases k <;> rfl

theorem exec_signalInstr_of_closed (h : s.portOpen = false) (k : SignalKind) (a : Bool) :
    exec (k.instr a) s = .next s := by
  rw [exec_signalInstr, signal_of_closed h]

theorem exec_signalInstr_of_open (h : s.portOpen = true) (hk : k ≠ .ring) (a : Bool) :
    exec (k.instr a) s = .next { s with events := s.events ++ [.notify k a] } := by
  rw [exec_signalInstr, signal_of_open h, notify_of_ne_ring hk]
  rfl

theorem exec_signalRing_of_open (h : s.portOpen = true) (a : Bool) : exec (.signalRing a) s = .next s := by
  have hexec : exec (.signalRing a) s = .next (signal .ring a s) := exec_signalInstr .ring a s
  rw [hexec, signal_of_open h, notify_ring]

end Machine

/-- Every instruction of the six SIGNAL rows is the instruction of a kind. -/
theorem SignalKind.exists_instr_eq {a : Bool} {i : Instr} (h : i ∈ [Instr.signalBreak a, .signalClearToSend a,
    .signalDataSetReady a, .signalError a, .signalRing a, .signalRlsd a]) : ∃ k : SignalKind, k.instr a = i := by
  have hmap : i ∈ [breakSignal, clearToSend, dataSetReady, error, ring, rlsd].map (·.instr a) := h
  obtain ⟨k, -, hk⟩ := List.mem_map.mp hmap
  exact ⟨k, hk⟩

/-- Settles O26: a closed port drops every kind, an open one relays every kind but RING. -/
theorem signalsRelayed : Obligations.SignalsRelayed := by
  refine fun s a => ⟨fun hclosed i hi => ?_, fun hopen => ?_⟩
  · obtain ⟨k, rfl⟩ := SignalKind.exists_instr_eq hi
    exact exec_signalInstr_of_closed hclosed k a
  · have hrelayed (k : SignalKind) (hk : k ≠ .ring) := exec_signalInstr_of_open hopen hk a
    exact ⟨hrelayed .breakSignal nofun, hrelayed .clearToSend nofun, hrelayed .dataSetReady nofun,
      hrelayed .error nofun, hrelayed .rlsd nofun, exec_signalRing_of_open hopen a⟩

end Sys2Proof
end

section
/-! Proofs of the statements of 60_exceptions.md (R280 to R295): the step with an empty queue, and a step of one
instance among several. -/

namespace Sys2Proof

open Machine Claims

namespace Machine

/-- A step under a legal configuration with nothing presented is the idle step (R295). -/
theorem step_of_no_inputs {s : State} (h : configValid s.cfg = true) (hi : s.inputs = []) :
    step s = .next (idleStep s) := by
  simp only [step, stepWith, hi, checked_of_configValid h]

/-- An instance takes a step when it exists and its own step is accepted; only its place in the list is written. -/
theorem stepInstance_eq_some_iff {k : Nat} {ss ts : List State} :
    stepInstance k ss = some ts ↔ ∃ s t, ss[k]? = some s ∧ step s = .next t ∧ ss.set k t = ts := by
  unfold stepInstance
  cases ss[k]? with
  | none => simp
  | some s =>
    cases hstep : step s with
    | next t => simp [hstep]
    | refused r => simp [hstep]
    | fault q => exact nomatch q

end Machine

/-- Settles O46: with an empty queue the step is the idle step. -/
theorem idleStepHoldsState : Obligations.IdleStepHoldsState :=
  fun _ hvalid hinputs => step_of_no_inputs hvalid hinputs

/-- Settles O58: the step of instance `k` writes place `k` of the list. -/
theorem instancesIndependent : Obligations.InstancesIndependent := by
  intro k j ss ts hstep hne
  obtain ⟨s, t, -, -, rfl⟩ := stepInstance_eq_some_iff.mp hstep
  exact List.getElem?_set_ne hne.symm

end Sys2Proof
end

section
/-! Proof of the statement of 70_reset_and_hazards.md (R310 to R336): the start-up. The reset state is idle on a closed
port with a poll due, so each clause is the closed-port law of its operation, and the first TICK is a poll that opens. -/

namespace Sys2Proof

open Machine Claims

namespace Machine

variable {s : State} {os : List OpenOutcome}

/-- A legal configuration allows at least one open (R8). -/
theorem one_le_openMaxTries_of_configValid {c : Config} (h : configValid c = true) : 1 ≤ c.openMaxTries := by
  obtain ⟨-, -, -, -, -, -, -, -, -, -, -, -, -, -, -, -, -, htries⟩ := (configValid_iff c).1 h
  exact htries

/-- When the first outcome is `OK`, the open loop makes one open (R234). -/
theorem opens_of_ok_first {k : Nat} (hk : 1 ≤ k) : Opens k (.ok :: os) 1 true os := .inl ⟨rfl, le_rfl, hk, rfl⟩

/-- A TICK with a poll due and no session opens a closed port at the first try when that open is `OK` (R110, R233). -/
theorem exec_tick_of_closed_of_ok_first (hrole : s.role = .rx) (hpoll : s.pollCnt = 0) (hclosed : s.portOpen = false)
    (htries : 1 ≤ s.cfg.openMaxTries) (horacle : s.oracle = .ok :: os) (v : Levels) :
    exec (.tick v) s = .next (afterOpening { s with pollCnt := s.cfg.pollTicks - 1 } 1 true os) := by
  have hway : Opens s.cfg.openMaxTries s.oracle 1 true os := horacle ▸ opens_of_ok_first htries
  rw [exec_tick_of_rx hrole, pollOpensClosedPort s v 1 true os hpoll hclosed hway]

end Machine

/-- Settles O40: the first TICK polls a closed port, and the other operations meet a closed port without a session. -/
theorem startupOpensPort : Obligations.StartupOpensPort := by
  intro c v os data m a hvalid
  have htick := exec_tick_of_closed_of_ok_first (s := { State.reset with cfg := c, oracle := .ok :: os })
    rfl rfl rfl (one_le_openMaxTries_of_configValid hvalid) rfl v
  obtain ⟨hsignals, -⟩ := signalsRelayed { State.reset with cfg := c } a
  obtain ⟨hsend, -⟩ := sendPreconditions { State.reset with cfg := c } m
  exact ⟨htick, exec_rxChunk_of_closed rfl data, hsignals rfl, hsend rfl rfl⟩

end Sys2Proof
end
